-- ==== Sys2Proof/Word.lean ====
section
/-! DEFINITION. The two value types of the wire (00_scope.md R7, R9): the byte and the Word. -/

namespace Sys2Proof

/-- A wire byte: unsigned, 8 bits (R7 `BYTE_BITS`, R51). -/
abbrev Byte := BitVec 8

/-- A Word: unsigned, 16 bits (R7 `WORD_BITS`, R14). -/
abbrev Word := BitVec 16

end Sys2Proof
end

