-- ==== Sys2Proof/Ports.lean ====
section
/-! DEFINITION. What crosses the block's ports: the request record the Host presents (30_encoding.md R70, R71), the
transport's opening parameters (10_state.md R31), the Transport's choices (20_memory.md R53), and the moves of the
agents (00_scope.md R6). Types only. -/

namespace Sys2Proof

/-- The transport's own failure value `e` (R27, R243): opaque, passed through unchanged; the number only tells two
values apart (log entry 18, DESIGN CHOICE). -/
structure FailureValue where
  code : Nat
  deriving DecidableEq, Repr, Inhabited

/-- `PORT_ID` (R8): opaque; the number only tells two identifiers apart (log entry 18, DESIGN CHOICE). -/
structure PortId where
  code : Nat
  deriving DecidableEq, Repr, Inhabited

/-- The parameters of `open(port_identifier, baud_rate, read_timeout, write_timeout)` (R31, R258). No Engine rule
reads them. Positive numbers of a unit the spec does not give (log entry 19, DESIGN CHOICE). -/
structure TransportConfig where
  portId       : PortId
  baudRate     : ℕ+
  readTimeout  : ℕ+
  writeTimeout : ℕ+
  deriving DecidableEq, Repr, Inhabited

/-- A finite `OPERAND_WIDTH` (R8): an integer of at least 18, so that 65536 and -1 can be presented (D4). -/
structure OperandWidth where
  bits : Nat
  wide : 18 ≤ bits
  deriving DecidableEq, Repr

/-- The operand record of `req_operands` (R71): every operand the five formats name. An operation reads the
operands of its own format only (log entry 6, DESIGN CHOICE). -/
structure OperandPorts where
  value    : Int := 0
  high     : Int := 0
  low      : Int := 0
  red      : Int := 0
  green    : Int := 0
  blue     : Int := 0
  words    : List Int := []
  bytes    : List Int := []
  expected : Int := 0
  deriving DecidableEq, Repr, Inhabited

/-- A presented request: the ports `req_op` and `req_operands` (R70), or a catalog operation, which is the request
`SEND [opcode] ++ args, RESP_COUNT(opcode)` (44_catalog.md R200; log entry 7, DEDUCED). -/
inductive Request where
  | port (op : BitVec 3) (operands : OperandPorts)
  | catalog (opcode : Word) (args : List Int)
  deriving DecidableEq, Repr, Inhabited

/-- What the Transport chooses for one `TxWrite` (R53): the answer and, for a failed write, the draw whether the byte
reached `T.tx`. -/
inductive WriteChoice where
  | ok
  | timeout (delivered : Bool)
  | fail (e : FailureValue) (delivered : Bool)
  deriving DecidableEq, Repr, Inhabited

/-- One move of one agent (R6). The Engine's move carries the Transport's choice, used only if the move writes a
byte (log entries 4 and 20). -/
inductive Move where
  /-- The Engine takes its next step (R21, D1). -/
  | engine (choice : WriteChoice)
  /-- The Host presents a request (R75). -/
  | present (r : Request)
  /-- The Host asserts `rsp_ack` (R76). -/
  | ack
  /-- The transport is opened (R258, R273). -/
  | openTransport (c : TransportConfig)
  /-- The block is reset (R270). -/
  | reset
  /-- The device sends a byte (R52). -/
  | device (b : Byte)
  deriving DecidableEq, Repr, Inhabited

end Sys2Proof
end

