-- ==== Sys2Proof/Config.lean ====
section
/-! DEFINITION. The parameters the spec leaves open (00_scope.md R8) and the free values. Each is a constant without a
body: no proof can see its value, so what is proved holds for every value. -/

namespace Sys2Proof

/-- `RESP_COUNT(opcode)` of an opcode whose count the source does not give (R202, U3; log entry 8). -/
opaque Config.respCountOpen : Word → Nat

/-- `PORT_ID`, `BAUD_RATE`, `READ_TIMEOUT` and `WRITE_TIMEOUT` of the transport opened at boot (R8, R274; log
entry 1). -/
opaque Config.transportConfig : TransportConfig

/-- `CONTRAST_RESET`: a Word or unset (R8, R222, U11; log entry 10). -/
opaque Config.contrastReset : Option Word

/-- What the contrast cache holds after a contrast-setting operation, from its arguments and the old value: the
spec says the operation sets it and not to what (R222; log entry 10). -/
opaque Config.contrastAfter : List Int → Option Word → Option Word

/-- The move made when no move is scripted (R6, R52, U4): any agent, any request, any byte, any answer. The
argument is `State.clock`, so each such move is a fresh choice (log entry 4). -/
opaque Config.freeMove : Nat → Move

end Sys2Proof
end

