-- ==== Sys2Proof/Syntax.lean ====
section
/-! DEFINITION. The instructions: one constructor per row of spec/opcode_table.json. Operands are integers of any
sign (30_encoding.md R71, D4). -/

namespace Sys2Proof

/-- A request of the Host (R72), a reserved selector (R84), or a catalog operation (R200). `args` are the argument
Words that follow the opcode; their number is not in the source but for two opcodes (R201, R202). -/
inductive Instr where
  /-- R101, `req_op = 0b000`. -/
  | encodeWord (value : Int)
  /-- R104, `req_op = 0b001`. -/
  | decodeWord (high low : Int)
  /-- R121, `req_op = 0b010`. -/
  | packColor (red green blue : Int)
  /-- R141, `req_op = 0b011`. -/
  | sendCommand (words : List Int) (expected : Int)
  /-- R150, `req_op = 0b100`. -/
  | sendRawCommand (bytes : List Int) (expected : Int)
  /-- R84, `req_op = 0b101`. -/
  | reserved101
  /-- R84, `req_op = 0b110`. -/
  | reserved110
  /-- R84, `req_op = 0b111`. -/
  | reserved111
  /-- R204, `0xFFC4`. -/
  | catRectFilled (args : List Int)
  /-- R204, `0xFFC5`. -/
  | catRectOutline (args : List Int)
  /-- R205, `0xFFB1`. -/
  | catEllipseFfb1 (args : List Int)
  /-- R205, `0xFFB2`. -/
  | catEllipseFfb2 (args : List Int)
  /-- R206, `0xFFC8`. -/
  | catLine (args : List Int)
  /-- R207, `0x0013`. -/
  | catPoly0013 (args : List Int)
  /-- R207, `0x0014`. -/
  | catPoly0014 (args : List Int)
  /-- R207, `0x0015`. -/
  | catPoly0015 (args : List Int)
  /-- R208, R87 `CLEAR_SCREEN`, `0xFFCD`: no argument. -/
  | catClearScreen
  /-- R209, `0xFFC1`. -/
  | catSetPixel (args : List Int)
  /-- R210, `0xFFE9`. -/
  | catSetCursor (args : List Int)
  /-- R211, `0xFFE5`. -/
  | catSetFont (args : List Int)
  /-- R212, `0xFFE3`. -/
  | catTextSizeFfe3 (args : List Int)
  /-- R212, `0xFFE4`. -/
  | catTextSizeFfe4 (args : List Int)
  /-- R213, `0xFFE7`. -/
  | catTextColour (args : List Int)
  /-- R214, `0xFFA4`. -/
  | catBgColour (args : List Int)
  /-- R215, `0xFF9C`. -/
  | catContrast (args : List Int)
  /-- R216, `0xFF9E`. -/
  | catOrientation (args : List Int)
  /-- R217, R87 `DISPLAY_SIZE_QUERY m`, `0xFFA6`: one argument. -/
  | catDisplaySizeQuery (m : Int)
  /-- R218, `0xFF39`. -/
  | catTouchMode (args : List Int)
  /-- R219, `0xFF37`. -/
  | catTouchPoll (args : List Int)
  deriving DecidableEq, Repr

end Sys2Proof
end

