-- ==== Sys2Proof/Decode.lean ====
section
/-! DEFINITION. From a presented request to an instruction and back (30_encoding.md R71, R72; 44_catalog.md R200 to
R220). The decoder is total: every selector and every catalog Word has an instruction. Reserved selectors have
constructors of their own, which the machine refuses by name (R84). -/

namespace Sys2Proof

/-- `RESP_COUNT(opcode)` (R201, R202): two opcodes are given by the source, the rest is a free parameter. -/
def respCount (opcode : Word) : Nat :=
  if opcode = 0xFFCD#16 then 0
  else if opcode = 0xFFA6#16 then 1
  else Config.respCountOpen opcode

/-- The request of R200 written as a plain send: `SEND [opcode] ++ args, RESP_COUNT(opcode)`. -/
def plainCatalogSend (opcode : Word) (args : List Int) : Instr :=
  .sendCommand ((opcode.toNat : Int) :: args) (respCount opcode : Int)

/-- The selector map of R72. -/
def decodePort (op : BitVec 3) (o : OperandPorts) : Instr :=
  match op.toNat with
  | 0 => .encodeWord o.value
  | 1 => .decodeWord o.high o.low
  | 2 => .packColor o.red o.green o.blue
  | 3 => .sendCommand o.words o.expected
  | 4 => .sendRawCommand o.bytes o.expected
  | 5 => .reserved101
  | 6 => .reserved110
  | _ => .reserved111

/-- The catalog Words of R204 to R219, in the order of spec/opcode_table.json, each with the operation it starts. The
two operations whose argument lists R87 fixes are those operations for that list only. -/
def catalogTable : List (Word × (List Int → Instr)) :=
  [ (0xFFC4#16, fun args => .catRectFilled args),
    (0xFFC5#16, fun args => .catRectOutline args),
    (0xFFB1#16, fun args => .catEllipseFfb1 args),
    (0xFFB2#16, fun args => .catEllipseFfb2 args),
    (0xFFC8#16, fun args => .catLine args),
    (0x0013#16, fun args => .catPoly0013 args),
    (0x0014#16, fun args => .catPoly0014 args),
    (0x0015#16, fun args => .catPoly0015 args),
    (0xFFCD#16, fun args => match args with
      | [] => .catClearScreen
      | _ => plainCatalogSend 0xFFCD#16 args),
    (0xFFC1#16, fun args => .catSetPixel args) ] ++
  [ (0xFFE9#16, fun args => .catSetCursor args),
    (0xFFE5#16, fun args => .catSetFont args),
    (0xFFE3#16, fun args => .catTextSizeFfe3 args),
    (0xFFE4#16, fun args => .catTextSizeFfe4 args),
    (0xFFE7#16, fun args => .catTextColour args),
    (0xFFA4#16, fun args => .catBgColour args),
    (0xFF9C#16, fun args => .catContrast args),
    (0xFF9E#16, fun args => .catOrientation args),
    (0xFFA6#16, fun args => match args with
      | [m] => .catDisplaySizeQuery m
      | _ => plainCatalogSend 0xFFA6#16 args),
    (0xFF39#16, fun args => .catTouchMode args),
    (0xFF37#16, fun args => .catTouchPoll args) ]

/-- A catalog request. A Word outside the table is not illegal (R220): it is framed and sent like any other (R153),
with the parameter `RESP_COUNT`. -/
def decodeCatalog (opcode : Word) (args : List Int) : Instr :=
  match catalogTable.lookup opcode with
  | some operation => operation args
  | none => plainCatalogSend opcode args

/-- The instruction a presented request stands for. -/
def decode : Request → Instr
  | .port op operands => decodePort op operands
  | .catalog opcode args => decodeCatalog opcode args

/-- The request that presents an instruction, written from R71, R72 and R204 to R219. Operands the operation does not
read are zero or empty. -/
def encode : Instr → Request
  | .encodeWord value => .port 0b000#3 { value := value }
  | .decodeWord high low => .port 0b001#3 { high := high, low := low }
  | .packColor red green blue => .port 0b010#3 { red := red, green := green, blue := blue }
  | .sendCommand words expected => .port 0b011#3 { words := words, expected := expected }
  | .sendRawCommand bytes expected => .port 0b100#3 { bytes := bytes, expected := expected }
  | .reserved101 => .port 0b101#3 {}
  | .reserved110 => .port 0b110#3 {}
  | .reserved111 => .port 0b111#3 {}
  | .catRectFilled args => .catalog 0xFFC4#16 args
  | .catRectOutline args => .catalog 0xFFC5#16 args
  | .catEllipseFfb1 args => .catalog 0xFFB1#16 args
  | .catEllipseFfb2 args => .catalog 0xFFB2#16 args
  | .catLine args => .catalog 0xFFC8#16 args
  | .catPoly0013 args => .catalog 0x0013#16 args
  | .catPoly0014 args => .catalog 0x0014#16 args
  | .catPoly0015 args => .catalog 0x0015#16 args
  | .catClearScreen => .catalog 0xFFCD#16 []
  | .catSetPixel args => .catalog 0xFFC1#16 args
  | .catSetCursor args => .catalog 0xFFE9#16 args
  | .catSetFont args => .catalog 0xFFE5#16 args
  | .catTextSizeFfe3 args => .catalog 0xFFE3#16 args
  | .catTextSizeFfe4 args => .catalog 0xFFE4#16 args
  | .catTextColour args => .catalog 0xFFE7#16 args
  | .catBgColour args => .catalog 0xFFA4#16 args
  | .catContrast args => .catalog 0xFF9C#16 args
  | .catOrientation args => .catalog 0xFF9E#16 args
  | .catDisplaySizeQuery m => .catalog 0xFFA6#16 [m]
  | .catTouchMode args => .catalog 0xFF39#16 args
  | .catTouchPoll args => .catalog 0xFF37#16 args

/-- The selector the block sees on `req_op` for a request (R72): a catalog operation is a SEND (R200). -/
def Request.selector : Request → BitVec 3
  | .port op _ => op
  | .catalog _ _ => 0b011#3

/-- The instruction is a send (R73): its selector is SEND_COMMAND's or SEND_RAW_COMMAND's (R72), a catalog operation
being a SEND (R200). -/
def Instr.isSend (i : Instr) : Bool :=
  decide ((encode i).selector = 0b011#3) || decide ((encode i).selector = 0b100#3)

/-- A signed integer fits a finite operand port of `OPERAND_WIDTH` bits (R71, D4; two's complement, log entry 17). -/
def fitsWidth (width : Option OperandWidth) (v : Int) : Bool :=
  match width with
  | none => true
  | some k => decide (-(2 ^ (k.bits - 1) : Int) ≤ v) && decide (v < (2 ^ (k.bits - 1) : Int))

/-- Every operand of the record fits (R71: a finite realization presents only the values that fit). -/
def OperandPorts.fits (width : Option OperandWidth) (o : OperandPorts) : Bool :=
  fitsWidth width o.value && fitsWidth width o.high && fitsWidth width o.low &&
    fitsWidth width o.red && fitsWidth width o.green && fitsWidth width o.blue &&
    o.words.all (fitsWidth width) && o.bytes.all (fitsWidth width) && fitsWidth width o.expected

/-- The operands of a request that are presented on operand ports all fit. A catalog request is the SEND of its opcode,
its arguments and its response count (R200), so all three must fit as the operands of `F_SEND` do (R71; log entry 17,
DEDUCED). -/
def Request.fits (width : Option OperandWidth) : Request → Bool
  | .port _ operands => operands.fits width
  | .catalog opcode args =>
    fitsWidth width (opcode.toNat : Int) && args.all (fitsWidth width) && fitsWidth width (respCount opcode : Int)

/-- The request of an opcode-table row whose bits are `w`: a row of at most 8 bits is a selector (R72) with operand
ports at zero, a row of 9 to 16 bits is a catalog Word with no operand, but for the display size query, whose one
operand is zero (R87). No request where `w` has bits outside the port (log entry 5). -/
def tableRequest (nbits w : Nat) : Option Request :=
  if nbits ≤ 8 then
    if w < 8 then some (.port (BitVec.ofNat 3 w) {}) else none
  else if nbits ≤ 16 then
    if w = 0xFFA6 then some (.catalog 0xFFA6#16 [0])
    else if w < 65536 then some (.catalog (BitVec.ofNat 16 w) [])
    else none
  else none

/-- The instruction the decoder reads from an opcode-table row's bits. -/
def decodeTableWord (nbits w : Nat) : Option Instr :=
  (tableRequest nbits w).map decode

end Sys2Proof
end

