-- ==== Sys2Proof/Machine/State.lean ====
section
/-! DEFINITION. The machine's state as plain data, everything the spec gives it (10_state.md R20 to R36), the reasons
a step can stop, and the state after reset. -/

namespace Sys2Proof.Machine

/-- `S.phase` (R21). -/
inductive Phase where
  | idle | tx | awaitingSentinel | readingResponse | done
  deriving DecidableEq, Repr

/-- `S.op`: the operation selected (R22, R72). A catalog operation is a SEND_COMMAND to the block (R200). -/
inductive Op where
  | encodeWord | decodeWord | packColor | sendCommand | sendRawCommand
  deriving DecidableEq, Repr

/-- The value of `Ok(v)` (R27, R78): its shape depends on the operation. -/
inductive OkValue where
  | pair (high low : Byte)
  | word (w : Word)
  | words (ws : List Word)
  deriving DecidableEq, Repr

/-- An outcome of a request (R27). -/
inductive RequestOutcome where
  | ok (v : OkValue)
  | rangeError
  | communicationError
  | protocolError (b : Byte)
  | transportWriteFailure (e : FailureValue)
  deriving DecidableEq, Repr

/-- The Engine state record `S` (R20 to R26). `none` in a per-request field is the spec's own "unset: a read of it is
a fault, never a default" (R28). -/
structure Engine where
  phase   : Phase
  op      : Option Op
  txbuf   : Option (List Byte)
  txidx   : Option Nat
  nresp   : Option Nat
  rxbuf   : Option (List Byte)
  outcome : Option RequestOutcome
  deriving DecidableEq, Repr

/-- The transport as programs observe it (R31, R33): its opening parameters, absent before `open`, the log of bytes
it has accepted, and the bytes the device has sent and the block has not read. -/
structure Transport where
  config : Option TransportConfig
  tx     : List Byte
  rx     : List Byte
  deriving DecidableEq, Repr

/-- The bounds a realization may set (R8): `none` is unbounded. -/
structure Bounds where
  operandWidth : Option OperandWidth
  maxCmdBytes  : Option Nat
  maxRespWords : Option Nat
  deriving DecidableEq, Repr

/-- The state of the whole model. `req` is the presented request (R70 `req_valid`, `req_op`, `req_operands`);
`contrast` is the catalog's contrast cache (R222). `script` and `clock` are the model's own: the moves already
settled, and the argument of the next free move (log entry 4). -/
structure State where
  eng       : Engine
  transport : Transport
  req       : Option Request
  bounds    : Bounds
  contrast  : Option Word
  script    : List Move
  clock     : Nat
  deriving DecidableEq, Repr

/-- The per-request fields of `S` that may be unset (R28). -/
inductive EngineField where
  | txbuf | txidx | nresp | rxbuf | outcome
  deriving DecidableEq, Repr

/-- Why the machine stops with a fault. No fault arises in a state whose Engine record is well formed. -/
inductive Fault where
  /-- A step or an output port read a per-request field that holds no value (R28, U12). Raised by the transmit and
  read steps and by the output ports. Safe: the spec calls the read a fault. -/
  | unset (field : EngineField)
  /-- A transmit step found no byte at `S.txidx`, against R23's invariant. Raised by the transmit step. Safe: the
  machine stops in a state the spec excludes. -/
  | noByteToWrite
  deriving DecidableEq, Repr

/-- Why a request is refused (R74, R245): it is never accepted and no state changes. -/
inductive Refusal where
  /-- An instruction with no meaning in this model. Raised by no arm: every instruction has a meaning. Safe. -/
  | notModelled (mnemonic : String)
  /-- `ReservedOp` (R74, R84). Raised by the three reserved selectors. Safe: the spec refuses them. -/
  | reservedOp
  /-- `NegativeChannel` (R74, U1). Raised by PACK_COLOR. Safe: the spec refuses it. -/
  | negativeChannel
  /-- `NegativeCount` (R74, U8). Raised by the two sends. Safe: the spec refuses it. -/
  | negativeCount
  /-- `TooLong` (R74, U9). Raised by a send over a bound. Safe: the spec refuses it. -/
  | tooLong
  /-- `TransportNotOpen` (R74, R273, U15). Raised by a send before `open`. Safe: the spec refuses it. -/
  | transportNotOpen
  deriving DecidableEq, Repr

/-- The Engine record after reset, and in `Idle` (R28, R36, R270): no per-request field holds a value. -/
def Engine.reset : Engine :=
  { phase := .idle, op := none, txbuf := none, txidx := none, nresp := none, rxbuf := none, outcome := none }

/-- The reference model's bounds (R8): none. -/
def Bounds.unbounded : Bounds :=
  { operandWidth := none, maxCmdBytes := none, maxRespWords := none }

/-- Before boot: the transport is not open (R31, R273). The spec gives the Engine record's values only after a reset (R36,
R270), and the boot order of R274 opens before it resets; that the record is already the reset one here is the model's
choice (log entry 30, DESIGN CHOICE), as are the other fields' values (log entries 2, 3, 4, 10, 17, 24). -/
def State.powerOn : State :=
  { eng := Engine.reset
    transport := { config := none, tx := [], rx := [] }
    req := none
    bounds := Bounds.unbounded
    contrast := Config.contrastReset
    script := []
    clock := 0 }

/-- Right after reset in the boot order of R274: the transport was opened, then the Engine was reset (R270, R36). -/
def State.reset : State :=
  { eng := Engine.reset
    transport := { config := some Config.transportConfig, tx := [], rx := [] }
    req := none
    bounds := Bounds.unbounded
    contrast := Config.contrastReset
    script := []
    clock := 0 }

end Sys2Proof.Machine
end

