-- ==== Sys2Proof/Machine/Ops.lean ====
section
/-! DEFINITION. The shared operations: reading a per-request field, the transport accesses, accepting, ending and
consuming a request, and the moves of the agents other than the Engine, but for presenting (Agents.lean). -/

namespace Sys2Proof.Machine

/-- The result type of every meaning and step. -/
abbrev Result := Host.Outcome State Fault Refusal

/-- Read a per-request field: a fault where it holds no value (R28, U12). -/
def withField {α : Type} (field : EngineField) (value : Option α) (k : α → Result) : Result :=
  match value with
  | some a => k a
  | none => .fault (.unset field)

/-! ## The transport -/

/-- The answer to a `TxWrite` (R53). -/
inductive WriteAnswer where
  | wOk
  | wTimeout
  | wFail (e : FailureValue)
  deriving DecidableEq, Repr

/-- The answer to an `RxRead` (R54). -/
inductive ReadAnswer where
  | byte (b : Byte)
  | timeout
  deriving DecidableEq, Repr

/-- The answer part of the Transport's choice (R53). -/
def writeAnswer : WriteChoice → WriteAnswer
  | .ok => .wOk
  | .timeout _ => .wTimeout
  | .fail e _ => .wFail e

/-- Whether the byte reached `T.tx` (R53): always under `WOk`, a draw under a failed write. -/
def byteDelivered : WriteChoice → Bool
  | .ok => true
  | .timeout delivered => delivered
  | .fail _ delivered => delivered

/-- `T.tx` and the rest of the transport after `TxWrite(b)` (R53). -/
def txWrite (b : Byte) (c : WriteChoice) (t : Transport) : Transport :=
  if byteDelivered c then { t with tx := t.tx ++ [b] } else t

/-- The answer of `RxRead()` (R54): the oldest byte, or `Timeout` where there is none. -/
def rxAnswer (t : Transport) : ReadAnswer :=
  match t.rx with
  | [] => .timeout
  | b :: _ => .byte b

/-- The transport after `RxRead()` (R54): the oldest byte is consumed. -/
def rxConsume (t : Transport) : Transport :=
  { t with rx := t.rx.tail }

/-- A device step (R52): the byte joins the end of `T.rx`. -/
def deviceAppend (b : Byte) (t : Transport) : Transport :=
  { t with rx := t.rx ++ [b] }

/-- `open` (R31, R258): the parameters are set once; a second `open` keeps the first's (log entry 16, DESIGN CHOICE). -/
def openWith (c : TransportConfig) (t : Transport) : Transport :=
  match t.config with
  | none => { t with config := some c }
  | some _ => t

/-! ## A request's life -/

/-- Acceptance (R75): the Engine latches the operation and the port is free again. -/
def latch (op : Op) (s : State) : State :=
  { s with req := none, eng := { s.eng with op := some op } }

/-- The end of a request (R247, R26): the outcome and the phase; the response buffer holds no value in `Done` (R28). -/
def finish (o : RequestOutcome) (s : State) : State :=
  { s with eng := { s.eng with phase := .done, rxbuf := none, outcome := some o } }

/-- Taking a failure (R247): the outcome is the error and the phase is `Done`; no vector, no saved state, no mode. -/
def raise (o : RequestOutcome) (s : State) : Result :=
  .next (finish o s)

/-- Returning from an outcome (R76, R250): in `Done`, `rsp_ack` takes the Engine to `Idle` with every per-request
field unset. `rsp_ack` outside `Done` meets no outcome and changes nothing (log entry 15). -/
def acknowledge (s : State) : State :=
  match s.eng.phase with
  | .done => { s with eng := Engine.reset }
  | _ => s

/-- Acceptance waits for `Idle` (R75): a request presented in another phase is held, not dropped. -/
def whenIdle (s : State) (k : State → Result) : Result :=
  match s.eng.phase with
  | .idle => k s
  | _ => .next s

/-- A pure operation's acceptance step (R102, R105, R122): latch, then `Done` with the outcome. -/
def completePure (op : Op) (o : RequestOutcome) (s : State) : Result :=
  whenIdle s fun s => .next (finish o (latch op s))

/-- A valid send's acceptance (R142, R151): the frame, the counters and the next phase. -/
def beginSend (op : Op) (frame : List Byte) (n : Nat) (s : State) : State :=
  let s := latch op s
  { s with eng := { s.eng with
      txbuf := some frame
      txidx := some 0
      nresp := some n
      phase := if 0 < frame.length then .tx else .awaitingSentinel } }

/-- A count is over a bound (R74 `TooLong`). -/
def overBound (bound : Option Nat) (k : Nat) : Bool :=
  match bound with
  | none => false
  | some m => decide (m < k)

/-- The acceptance step of a send with a count that is no negative number: the refusals of R74, then R75, then R142 or
R151. `size` is the number of bytes the command has; `frame` is `none` where an operand is out of range. On a closed
transport a send is refused in every phase (R273). -/
def acceptSend (op : Op) (size : Nat) (frame : Option (List Byte)) (n : Nat) (s : State) : Result :=
  if overBound s.bounds.maxCmdBytes size || overBound s.bounds.maxRespWords n then
    .refused .tooLong
  else
    match s.transport.config with
    | none => .refused .transportNotOpen
    | some _ =>
      whenIdle s fun s =>
        match frame with
        | none => raise .rangeError (latch op s)
        | some bytes => .next (beginSend op bytes n s)

/-- The acceptance step of a send with the count as presented: a negative one is refused (R74 `NegativeCount`). -/
def acceptSendSigned (op : Op) (size : Nat) (frame : Option (List Byte)) (n : Int) (s : State) : Result :=
  match n with
  | .ofNat n => acceptSend op size frame n s
  | .negSucc _ => .refused .negativeCount

/-! ## The moves of the Host, the device and reset -/

/-- Reset (R270): the Engine record and nothing else. -/
def resetEngine (s : State) : State :=
  { s with eng := Engine.reset }

/-- The device sends a byte (R52). -/
def deviceSends (b : Byte) (s : State) : State :=
  { s with transport := deviceAppend b s.transport }

/-- The transport is opened (R273). -/
def openTransport (c : TransportConfig) (s : State) : State :=
  { s with transport := openWith c s.transport }

/-- The catalog's contrast cache after a contrast-setting operation (R222): set, to a value the spec does not give. -/
def cacheContrast (args : List Int) (s : State) : State :=
  { s with contrast := Config.contrastAfter args s.contrast }

/-! ## Whose move it is -/

/-- The next move: the first of the script, or a free one (log entry 4). -/
def nextMove (s : State) : Move :=
  match s.script with
  | m :: _ => m
  | [] => Config.freeMove s.clock

/-- The state once the next move is taken from the script, or a fresh one is drawn. -/
def takeMove (s : State) : State :=
  match s.script with
  | _ :: ms => { s with script := ms }
  | [] => { s with clock := s.clock + 1 }

end Sys2Proof.Machine
end

