-- ==== Sys2Proof/Machine/Operands.lean ====
section
/-! DEFINITION. Operand assembly (30_encoding.md R83): each operand's bit pattern, by exactly one rule, and the wire
frames (R79, R80). `none` is RangeError (R240). No operand is truncated or wrapped (R110). -/

namespace Sys2Proof.Machine

/-- A byte operand: an integer in [0, 255], else RangeError (R104, R150). -/
def byteOperand (v : Int) : Option Byte :=
  if v < 0 ∨ v ≥ 256 then none else some (BitVec.ofInt 8 v)

/-- A Word operand: an integer in [0, 65535], else RangeError (R101, R141). -/
def wordOperand (v : Int) : Option Word :=
  if v < 0 ∨ v ≥ 65536 then none else some (BitVec.ofInt 16 v)

/-- `(value >> 8, value & 0xFF)` (R101). -/
def splitWord (w : Word) : Byte × Byte :=
  ((w >>> 8).setWidth 8, (w &&& 0xFF#16).setWidth 8)

/-- `(h << 8) | l` (R104). -/
def joinBytes (h l : Byte) : Word :=
  (h.setWidth 16 <<< 8) ||| l.setWidth 16

/-- `encode_word` (R101). -/
def encodeWord (value : Int) : Option (Byte × Byte) :=
  (wordOperand value).map splitWord

/-- `decode_word` (R104). -/
def decodeWord (high low : Int) : Option Word :=
  match byteOperand high, byteOperand low with
  | some h, some l => some (joinBytes h l)
  | _, _ => none

/-- `pack_color` on non-negative channels (R121): each channel saturates at its own maximum. -/
def packColor (red green blue : Nat) : Word :=
  (BitVec.ofNat 16 (min red 31) <<< 11) ||| (BitVec.ofNat 16 (min green 63) <<< 5) |||
    BitVec.ofNat 16 (min blue 31)

/-- The three channels as natural numbers; none where one is negative (R74 `NegativeChannel`). -/
def channels (red green blue : Int) : Option (Nat × Nat × Nat) :=
  match red, green, blue with
  | .ofNat r, .ofNat g, .ofNat b => some (r, g, b)
  | _, _, _ => none

/-- `frame(words)` (R79): two bytes a Word, high byte first; RangeError if any Word is out of range (R142). -/
def wordFrame : List Int → Option (List Byte)
  | [] => some []
  | w :: ws =>
    match encodeWord w, wordFrame ws with
    | some (hi, lo), some rest => some (hi :: lo :: rest)
    | _, _ => none

/-- The raw frame (R80): the bytes unchanged; RangeError if any is out of range (R151). -/
def rawFrame : List Int → Option (List Byte)
  | [] => some []
  | b :: bs =>
    match byteOperand b, rawFrame bs with
    | some byte, some rest => some (byte :: rest)
    | _, _ => none

/-- The response Words: `decode_word` of each pair, in order (R176). A byte without a partner has no Word. -/
def responseWords : List Byte → List Word
  | h :: l :: rest => joinBytes h l :: responseWords rest
  | _ => []

end Sys2Proof.Machine
end

