-- ==== Sys2Proof/Machine/AckReader.lean ====
section
/-! DEFINITION. ack_reader: the sentinel step and the response step (43_ack_reader.md). -/

namespace Sys2Proof.Machine

/-- `SENTINEL` (R7, R32). -/
def sentinel : Byte := 0x06#8

/-- The sentinel step (R171 to R174): one `RxRead`. -/
def readSentinel (s : State) : Result :=
  let s' := { s with transport := rxConsume s.transport }
  match rxAnswer s.transport with
  | .timeout => raise .communicationError s'
  | .byte b =>
    if b ≠ sentinel then raise (.protocolError b) s'
    else
      withField .nresp s.eng.nresp fun n =>
        if n = 0 then .next (finish (.ok (.words [])) s')
        else .next { s' with eng := { s'.eng with rxbuf := some [], phase := .readingResponse } }

/-- The response step (R175, R176): one `RxRead`. -/
def readResponse (s : State) : Result :=
  let s' := { s with transport := rxConsume s.transport }
  match rxAnswer s.transport with
  | .timeout => raise .communicationError s'
  | .byte b =>
    withField .rxbuf s.eng.rxbuf fun got =>
      withField .nresp s.eng.nresp fun n =>
        let got := got ++ [b]
        if got.length = 2 * n then .next (finish (.ok (.words (responseWords got))) s')
        else .next { s' with eng := { s'.eng with rxbuf := some got } }

end Sys2Proof.Machine
end

