-- ==== Sys2Proof/Machine/Catalog.lean ====
section
/-! DEFINITION. The catalog operations (44_catalog.md R200 to R220): each is one
`SEND [opcode] ++ args, RESP_COUNT(opcode)`. The block does not look at the opcode (R153). -/

namespace Sys2Proof.Machine

/-- The request of a catalog operation (R200). -/
def catalogSend (opcode : Word) (args : List Int) (s : State) : Result :=
  acceptSend .sendCommand (2 * (args.length + 1)) (wordFrame ((opcode.toNat : Int) :: args)) (respCount opcode) s

/-- A contrast-setting operation sets the contrast cache when it is accepted (R222; log entry 10). -/
def cacheOnAcceptance (args : List Int) (s : State) : State :=
  match s.eng.phase with
  | .idle => cacheContrast args s
  | _ => s

/-- CAT_RECT_FILLED (R204): `SEND [0xFFC4] ++ args, RESP_COUNT(0xFFC4)`. -/
def execCatRectFilled (args : List Int) (s : State) : Result :=
  catalogSend 0xFFC4#16 args s

/-- CAT_RECT_OUTLINE (R204): `SEND [0xFFC5] ++ args, RESP_COUNT(0xFFC5)`. -/
def execCatRectOutline (args : List Int) (s : State) : Result :=
  catalogSend 0xFFC5#16 args s

/-- CAT_ELLIPSE_FFB1 (R205): `SEND [0xFFB1] ++ args, RESP_COUNT(0xFFB1)`. -/
def execCatEllipseFfb1 (args : List Int) (s : State) : Result :=
  catalogSend 0xFFB1#16 args s

/-- CAT_ELLIPSE_FFB2 (R205): `SEND [0xFFB2] ++ args, RESP_COUNT(0xFFB2)`. -/
def execCatEllipseFfb2 (args : List Int) (s : State) : Result :=
  catalogSend 0xFFB2#16 args s

/-- CAT_LINE (R206): `SEND [0xFFC8] ++ args, RESP_COUNT(0xFFC8)`. -/
def execCatLine (args : List Int) (s : State) : Result :=
  catalogSend 0xFFC8#16 args s

/-- CAT_POLY_0013 (R207): `SEND [0x0013] ++ args, RESP_COUNT(0x0013)`. -/
def execCatPoly0013 (args : List Int) (s : State) : Result :=
  catalogSend 0x0013#16 args s

/-- CAT_POLY_0014 (R207): `SEND [0x0014] ++ args, RESP_COUNT(0x0014)`. -/
def execCatPoly0014 (args : List Int) (s : State) : Result :=
  catalogSend 0x0014#16 args s

/-- CAT_POLY_0015 (R207): `SEND [0x0015] ++ args, RESP_COUNT(0x0015)`. -/
def execCatPoly0015 (args : List Int) (s : State) : Result :=
  catalogSend 0x0015#16 args s

/-- CAT_CLEAR_SCREEN (R208, R87, R201): `SEND [0xFFCD], 0`. -/
def execCatClearScreen (s : State) : Result :=
  catalogSend 0xFFCD#16 [] s

/-- CAT_SET_PIXEL (R209): `SEND [0xFFC1] ++ args, RESP_COUNT(0xFFC1)`. -/
def execCatSetPixel (args : List Int) (s : State) : Result :=
  catalogSend 0xFFC1#16 args s

/-- CAT_SET_CURSOR (R210): `SEND [0xFFE9] ++ args, RESP_COUNT(0xFFE9)`. -/
def execCatSetCursor (args : List Int) (s : State) : Result :=
  catalogSend 0xFFE9#16 args s

/-- CAT_SET_FONT (R211): `SEND [0xFFE5] ++ args, RESP_COUNT(0xFFE5)`. -/
def execCatSetFont (args : List Int) (s : State) : Result :=
  catalogSend 0xFFE5#16 args s

/-- CAT_TEXT_SIZE_FFE3 (R212): `SEND [0xFFE3] ++ args, RESP_COUNT(0xFFE3)`. -/
def execCatTextSizeFfe3 (args : List Int) (s : State) : Result :=
  catalogSend 0xFFE3#16 args s

/-- CAT_TEXT_SIZE_FFE4 (R212): `SEND [0xFFE4] ++ args, RESP_COUNT(0xFFE4)`. -/
def execCatTextSizeFfe4 (args : List Int) (s : State) : Result :=
  catalogSend 0xFFE4#16 args s

/-- CAT_TEXT_COLOUR (R213): `SEND [0xFFE7] ++ args, RESP_COUNT(0xFFE7)`. -/
def execCatTextColour (args : List Int) (s : State) : Result :=
  catalogSend 0xFFE7#16 args s

/-- CAT_BG_COLOUR (R214): `SEND [0xFFA4] ++ args, RESP_COUNT(0xFFA4)`. -/
def execCatBgColour (args : List Int) (s : State) : Result :=
  catalogSend 0xFFA4#16 args s

/-- CAT_CONTRAST (R215, R222): `SEND [0xFF9C] ++ args, RESP_COUNT(0xFF9C)`, and the contrast cache is set. -/
def execCatContrast (args : List Int) (s : State) : Result :=
  catalogSend 0xFF9C#16 args (cacheOnAcceptance args s)

/-- CAT_ORIENTATION (R216): `SEND [0xFF9E] ++ args, RESP_COUNT(0xFF9E)`. -/
def execCatOrientation (args : List Int) (s : State) : Result :=
  catalogSend 0xFF9E#16 args s

/-- CAT_DISPLAY_SIZE_QUERY (R217, R87, R201): `SEND [0xFFA6, m], 1`. -/
def execCatDisplaySizeQuery (m : Int) (s : State) : Result :=
  catalogSend 0xFFA6#16 [m] s

/-- CAT_TOUCH_MODE (R218): `SEND [0xFF39] ++ args, RESP_COUNT(0xFF39)`. -/
def execCatTouchMode (args : List Int) (s : State) : Result :=
  catalogSend 0xFF39#16 args s

/-- CAT_TOUCH_POLL (R219): `SEND [0xFF37] ++ args, RESP_COUNT(0xFF37)`. -/
def execCatTouchPoll (args : List Int) (s : State) : Result :=
  catalogSend 0xFF37#16 args s

end Sys2Proof.Machine
end

