-- ==== Sys2Proof/Machine/Codec.lean ====
section
/-! DEFINITION. word_codec: ENCODE_WORD and DECODE_WORD (40_word_codec.md). -/

namespace Sys2Proof.Machine

/-- ENCODE_WORD (R101, R102). -/
def execEncodeWord (value : Int) (s : State) : Result :=
  completePure .encodeWord
    (match encodeWord value with
      | some (hi, lo) => .ok (.pair hi lo)
      | none => .rangeError) s

/-- DECODE_WORD (R104, R105). -/
def execDecodeWord (high low : Int) (s : State) : Result :=
  completePure .decodeWord
    (match decodeWord high low with
      | some w => .ok (.word w)
      | none => .rangeError) s

end Sys2Proof.Machine
end

