-- ==== Sys2Proof/Machine/Color.lean ====
section
/-! DEFINITION. color_packer: PACK_COLOR (41_color_packer.md). -/

namespace Sys2Proof.Machine

/-- PACK_COLOR (R121, R122); a negative channel is refused (R74, U1). -/
def execPackColor (red green blue : Int) (s : State) : Result :=
  match channels red green blue with
  | some (r, g, b) => completePure .packColor (.ok (.word (packColor r g b))) s
  | none => .refused .negativeChannel

end Sys2Proof.Machine
end

