-- ==== Sys2Proof/Machine/Flags.lean ====
section
/-! DEFINITION. The block has no flags (10_state.md R30): its only status is the outcome, shown on the output ports
(30_encoding.md R70, R76 to R78). -/

namespace Sys2Proof.Machine

/-- `req_ready`: 1 exactly in `Idle` (R70). -/
def reqReady (s : State) : Bool :=
  decide (s.eng.phase = .idle)

/-- `rsp_valid`: 1 exactly in `Done` (R70). -/
def rspValid (s : State) : Bool :=
  decide (s.eng.phase = .done)

/-- The status code of an outcome (R77). -/
def statusCode : RequestOutcome → BitVec 3
  | .ok _ => 0
  | .rangeError => 1
  | .communicationError => 2
  | .protocolError _ => 3
  | .transportWriteFailure _ => 4

/-- The payload that goes with a status (R77, R78). -/
inductive Payload where
  | none
  | value (v : OkValue)
  | byte (b : Byte)
  | failure (e : FailureValue)
  deriving DecidableEq, Repr

/-- The payload of an outcome (R77, R78). -/
def payloadOf : RequestOutcome → Payload
  | .ok v => .value v
  | .rangeError => .none
  | .communicationError => .none
  | .protocolError b => .byte b
  | .transportWriteFailure e => .failure e

/-- The outcome as the Host reads it: a fault outside `Done`, where it holds no value (R26, R28, U12). -/
def readOutcome (s : State) : Except Fault RequestOutcome :=
  match s.eng.phase, s.eng.outcome with
  | .done, some o => .ok o
  | _, _ => .error (.unset .outcome)

/-- `rsp_status` (R76, R77). -/
def rspStatus (s : State) : Except Fault (BitVec 3) :=
  (readOutcome s).map statusCode

/-- `rsp_payload` (R76, R78). -/
def rspPayload (s : State) : Except Fault Payload :=
  (readOutcome s).map payloadOf

end Sys2Proof.Machine
end

