-- ==== Sys2Proof/Machine/Framer.lean ====
section
/-! DEFINITION. command_framer: the acceptance steps of SEND_COMMAND and SEND_RAW_COMMAND and the transmit step
(42_command_framer.md). -/

namespace Sys2Proof.Machine

/-- SEND_COMMAND (R141, R142). -/
def execSendCommand (words : List Int) (expected : Int) (s : State) : Result :=
  acceptSendSigned .sendCommand (2 * words.length) (wordFrame words) expected s

/-- SEND_RAW_COMMAND (R150, R151). -/
def execSendRawCommand (bytes : List Int) (expected : Int) (s : State) : Result :=
  acceptSendSigned .sendRawCommand bytes.length (rawFrame bytes) expected s

/-- One more byte of a `frameLength`-byte frame is written, the one at `k` (R143). -/
def advance (frameLength k : Nat) (s : State) : State :=
  { s with eng := { s.eng with
      txidx := some (k + 1)
      phase := if k + 1 = frameLength then .awaitingSentinel else s.eng.phase } }

/-- The transmit step (R143 to R145): one `TxWrite` of the byte at `S.txidx`. -/
def transmit (c : WriteChoice) (s : State) : Result :=
  withField .txbuf s.eng.txbuf fun frame =>
    withField .txidx s.eng.txidx fun k =>
      match frame[k]? with
      | none => .fault .noByteToWrite
      | some b =>
        let s := { s with transport := txWrite b c s.transport }
        match writeAnswer c with
        | .wOk => .next (advance frame.length k s)
        | .wTimeout => raise .communicationError s
        | .wFail e => raise (.transportWriteFailure e) s

end Sys2Proof.Machine
end

