-- ==== Sys2Proof/Machine/Reserved.lean ====
section
/-! DEFINITION. The reserved selectors (30_encoding.md R74, R84): refused as `ReservedOp`, in every state. -/

namespace Sys2Proof.Machine

/-- RESERVED_101 (R84). -/
def execReserved101 (_s : State) : Result :=
  .refused .reservedOp

/-- RESERVED_110 (R84). -/
def execReserved110 (_s : State) : Result :=
  .refused .reservedOp

/-- RESERVED_111 (R84). -/
def execReserved111 (_s : State) : Result :=
  .refused .reservedOp

end Sys2Proof.Machine
end

