-- ==== Sys2Proof/Machine/Dispatch.lean ====
section
/-! DEFINITION. One arm per instruction: the call of its meaning. -/

namespace Sys2Proof.Machine

def exec (i : Instr) (s : State) : Host.Outcome State Fault Refusal :=
  match i with
  | .encodeWord value => Sys2Proof.Machine.execEncodeWord value s
  | .decodeWord high low => Sys2Proof.Machine.execDecodeWord high low s
  | .packColor red green blue => Sys2Proof.Machine.execPackColor red green blue s
  | .sendCommand words expected => Sys2Proof.Machine.execSendCommand words expected s
  | .sendRawCommand bytes expected => Sys2Proof.Machine.execSendRawCommand bytes expected s
  | .reserved101 => Sys2Proof.Machine.execReserved101 s
  | .reserved110 => Sys2Proof.Machine.execReserved110 s
  | .reserved111 => Sys2Proof.Machine.execReserved111 s
  | .catRectFilled args => Sys2Proof.Machine.execCatRectFilled args s
  | .catRectOutline args => Sys2Proof.Machine.execCatRectOutline args s
  | .catEllipseFfb1 args => Sys2Proof.Machine.execCatEllipseFfb1 args s
  | .catEllipseFfb2 args => Sys2Proof.Machine.execCatEllipseFfb2 args s
  | .catLine args => Sys2Proof.Machine.execCatLine args s
  | .catPoly0013 args => Sys2Proof.Machine.execCatPoly0013 args s
  | .catPoly0014 args => Sys2Proof.Machine.execCatPoly0014 args s
  | .catPoly0015 args => Sys2Proof.Machine.execCatPoly0015 args s
  | .catClearScreen => Sys2Proof.Machine.execCatClearScreen s
  | .catSetPixel args => Sys2Proof.Machine.execCatSetPixel args s
  | .catSetCursor args => Sys2Proof.Machine.execCatSetCursor args s
  | .catSetFont args => Sys2Proof.Machine.execCatSetFont args s
  | .catTextSizeFfe3 args => Sys2Proof.Machine.execCatTextSizeFfe3 args s
  | .catTextSizeFfe4 args => Sys2Proof.Machine.execCatTextSizeFfe4 args s
  | .catTextColour args => Sys2Proof.Machine.execCatTextColour args s
  | .catBgColour args => Sys2Proof.Machine.execCatBgColour args s
  | .catContrast args => Sys2Proof.Machine.execCatContrast args s
  | .catOrientation args => Sys2Proof.Machine.execCatOrientation args s
  | .catDisplaySizeQuery m => Sys2Proof.Machine.execCatDisplaySizeQuery m s
  | .catTouchMode args => Sys2Proof.Machine.execCatTouchMode args s
  | .catTouchPoll args => Sys2Proof.Machine.execCatTouchPoll args s

end Sys2Proof.Machine
end

