-- ==== Sys2Proof/Machine/Agents.lean ====
section
/-! DEFINITION. What each move of each agent does (00_scope.md R6, 10_state.md R21). -/

namespace Sys2Proof.Machine

/-- The Host presents a request (R75): at most one at a time (log entry 15), and only what fits its operand ports (R71;
log entry 17). A send presented while the transport is not open is refused at once (R74, R273), so that a later `open`
does not let it be accepted: on a closed transport its acceptance step is its refusal. The other refusals of R74 are
found in the Engine's acceptance move (log entry 29, DESIGN CHOICE). -/
def presentRequest (r : Request) (s : State) : Result :=
  match s.req with
  | some _ => .next s
  | none =>
    if r.fits s.bounds.operandWidth then
      if (decode r).isSend && s.transport.config.isNone then exec (decode r) s
      else .next { s with req := some r }
    else .next s

/-- The Engine in `Idle` (R75): it takes the presented request, if there is one, and runs its acceptance step. -/
def acceptMove (s : State) : Result :=
  match s.req with
  | none => .next s
  | some r => exec (decode r) s

/-- One Engine step: acceptance, one transport access, or holding an outcome in `Done` (R76, R252). -/
def engineMove (c : WriteChoice) (s : State) : Result :=
  match s.eng.phase with
  | .idle => acceptMove s
  | .tx => transmit c s
  | .awaitingSentinel => readSentinel s
  | .readingResponse => readResponse s
  | .done => .next s

/-- One move of one agent. -/
def applyMove (m : Move) (s : State) : Result :=
  match m with
  | .engine c => engineMove c s
  | .present r => presentRequest r s
  | .ack => .next (acknowledge s)
  | .openTransport c => .next (openTransport c s)
  | .reset => .next (resetEngine s)
  | .device b => .next (deviceSends b s)

/-- The state in which the next move is the Engine's and takes the request `r` in `Idle`: what presenting and
accepting need, and nothing else (log entry 5). -/
def placeRequest (r : Request) (s : State) : State :=
  { s with
    req := some r
    eng := match s.eng.phase with
      | .idle => s.eng
      | _ => Engine.reset
    script := .engine .ok :: s.script }

end Sys2Proof.Machine
end

