-- ==== Sys2Proof/Machine/Step.lean ====
section
/-! DEFINITION. One step of the machine: one move of one agent. -/

namespace Sys2Proof.Machine

/-- The next move is taken and made. -/
def step (s : State) : Host.Outcome State Fault Refusal :=
  applyMove (nextMove s) (takeMove s)

/-- The state whose very next step runs the instruction of an opcode-table row (log entry 5). -/
def State.withFetchWord (s : State) (nbits w : Nat) : State :=
  match tableRequest nbits w with
  | some r => placeRequest r s
  | none => s

end Sys2Proof.Machine
end

