-- ==== Sys2Proof/WellFormed.lean ====
section
/-! DEFINITION. Which instructions are well formed as text: those that R74 does not refuse whatever the state. The
refusals that depend on the state (`TooLong`, `TransportNotOpen`) are the machine's. -/

namespace Sys2Proof

/-- No negative colour channel (R74 `NegativeChannel`, R121's precondition), no negative response count (R74
`NegativeCount`), no reserved selector (R74 `ReservedOp`). An out-of-range Word or byte is well formed: it has a
defined outcome, RangeError (R240). -/
def Instr.wellFormed : Instr → Bool
  | .encodeWord _ => true
  | .decodeWord _ _ => true
  | .packColor red green blue => decide (0 ≤ red) && decide (0 ≤ green) && decide (0 ≤ blue)
  | .sendCommand _ expected => decide (0 ≤ expected)
  | .sendRawCommand _ expected => decide (0 ≤ expected)
  | .reserved101 => false
  | .reserved110 => false
  | .reserved111 => false
  | .catRectFilled _ => true
  | .catRectOutline _ => true
  | .catEllipseFfb1 _ => true
  | .catEllipseFfb2 _ => true
  | .catLine _ => true
  | .catPoly0013 _ => true
  | .catPoly0014 _ => true
  | .catPoly0015 _ => true
  | .catClearScreen => true
  | .catSetPixel _ => true
  | .catSetCursor _ => true
  | .catSetFont _ => true
  | .catTextSizeFfe3 _ => true
  | .catTextSizeFfe4 _ => true
  | .catTextColour _ => true
  | .catBgColour _ => true
  | .catContrast _ => true
  | .catOrientation _ => true
  | .catDisplaySizeQuery _ => true
  | .catTouchMode _ => true
  | .catTouchPoll _ => true

end Sys2Proof
end

