-- ==== Sys2Proof/Safety.lean ====
section
/-! DEFINITION. The terms claims use: when the Engine record is well formed (10_state.md R21 to R28), when a send may be
accepted (30_encoding.md R74, R75), and how many Engine steps a request has left (70_reset_and_hazards.md R282). -/

namespace Sys2Proof.Machine

/-- The two sends (R73). -/
def Op.isSend : Op → Bool
  | .encodeWord => false
  | .decodeWord => false
  | .packColor => false
  | .sendCommand => true
  | .sendRawCommand => true

/-- The outcomes a request may have that ends in its acceptance step (R244, R27): the pure operations' outcomes, and a
send's RangeError. -/
def immediateOutcome (op : Op) (o : RequestOutcome) : Bool :=
  match o with
  | .ok (.pair _ _) => decide (op = .encodeWord)
  | .ok (.word _) => decide (op = .decodeWord ∨ op = .packColor)
  | .ok (.words _) => false
  | .rangeError => decide (op ≠ .packColor)
  | .communicationError => false
  | .protocolError _ => false
  | .transportWriteFailure _ => false

/-- The outcomes a send may have once its frame was built, with `written` of `total` bytes answered `WOk` and `n`
response Words expected (R27, R143 to R145, R171 to R176, R184). -/
def sendOutcome (written total n : Nat) : RequestOutcome → Bool
  | .ok (.words ws) => decide (written = total) && decide (ws.length = n)
  | .protocolError b => decide (written = total) && decide (b ≠ sentinel)
  | .communicationError => decide (written ≤ total)
  | .transportWriteFailure _ => decide (written < total)
  | .ok (.pair _ _) => false
  | .ok (.word _) => false
  | .rangeError => false

/-- Which fields hold a value in each phase, and the bounds between them (R23, R25, R27, R28). -/
def Engine.wf : Engine → Bool
  | ⟨.idle, none, none, none, none, none, none⟩ => true
  | ⟨.tx, some op, some frame, some k, some _, none, none⟩ => op.isSend && decide (k < frame.length)
  | ⟨.awaitingSentinel, some op, some frame, some k, some _, none, none⟩ =>
    op.isSend && decide (k = frame.length)
  | ⟨.readingResponse, some op, some frame, some k, some n, some got, none⟩ =>
    op.isSend && decide (k = frame.length) && decide (got.length < 2 * n)
  | ⟨.done, some op, none, none, none, none, some o⟩ => immediateOutcome op o
  | ⟨.done, some op, some frame, some k, some n, none, some o⟩ =>
    op.isSend && sendOutcome k frame.length n o
  | _ => false

/-- A send of `size` bytes and `n` response Words is neither refused nor held (R74, R75): the Engine is in `Idle`, the
transport is open and no bound is passed. -/
def State.ready (size n : Nat) (s : State) : Bool :=
  decide (s.eng.phase = .idle) && s.transport.config.isSome &&
    !overBound s.bounds.maxCmdBytes size && !overBound s.bounds.maxRespWords n

/-- Engine steps left before `Done` at most (R282): bytes to write, the sentinel, bytes to read. -/
def Engine.remaining (e : Engine) : Nat :=
  match e.phase with
  | .idle => 0
  | .tx => ((e.txbuf.getD []).length - e.txidx.getD 0) + 1 + 2 * e.nresp.getD 0
  | .awaitingSentinel => 1 + 2 * e.nresp.getD 0
  | .readingResponse => 2 * e.nresp.getD 0 - (e.rxbuf.getD []).length
  | .done => 0

end Sys2Proof.Machine
end

