-- ==== Sys2Proof/Certificates/Slice0/Obligations.lean ====
section
/-! DEFINITION. The statements for the provers. Expected states are written out as record updates, and expected values
as integer arithmetic, from the rules cited; what a record update does not name is unchanged, so an equation of this
shape is also the instruction's frame. -/

namespace Sys2Proof.Machine.Claims

/-- Every element of a list lies in `[0, top)`. -/
def InRange (top : Int) (vs : List Int) : Prop :=
  ∀ v ∈ vs, 0 ≤ v ∧ v < top

/-- The bytes of a list of integers, each below 256, unchanged (R80). -/
def rawBytes (vs : List Int) : List Byte :=
  vs.map fun v => BitVec.ofInt 8 v

/-- The bytes of a list of Words, two a Word, high byte first (R79). -/
def wordBytes (vs : List Int) : List Byte :=
  vs.flatMap fun v => [BitVec.ofInt 8 (v / 256), BitVec.ofInt 8 (v % 256)]

/-- The first `n` Words of a list of response bytes: Word `k` is byte `2k` times 256 plus byte `2k + 1` (R176). -/
def wordsOf (n : Nat) (bytes : List Byte) : List Word :=
  (List.range n).map fun k =>
    BitVec.ofNat 16 ((bytes.getD (2 * k) 0).toNat * 256 + (bytes.getD (2 * k + 1) 0).toNat)

/-- The request taken from the port has ended in `Done` with an outcome, in its acceptance step. -/
def ended (op : Op) (o : RequestOutcome) (s : State) : State :=
  { s with
    req := none
    eng := { s.eng with phase := .done, op := some op, rxbuf := none, outcome := some o } }

/-- The request taken from the port is a send under way with its frame built and nothing written (R142, R151). -/
def sending (op : Op) (frame : List Byte) (n : Nat) (s : State) : State :=
  { s with
    req := none
    eng := { s.eng with
      phase := if frame = [] then .awaitingSentinel else .tx
      op := some op
      txbuf := some frame
      txidx := some 0
      nresp := some n } }

/-- The request in progress has ended in `Done` with an outcome, and the transport's streams are now these. -/
def endedWith (o : RequestOutcome) (tx rx : List Byte) (s : State) : State :=
  { s with
    eng := { s.eng with phase := .done, rxbuf := none, outcome := some o }
    transport := { s.transport with tx := tx, rx := rx } }

/-- A catalog operation with the opcode bytes `hi`, `lo`: for every list of argument Words, in every ready state, it is
accepted and becomes a send of the opcode's two bytes and the arguments' bytes, with the opcode's response count. -/
def CatalogSends (operation : List Int → Instr) (hi lo : Byte) : Prop :=
  ∀ (args : List Int) (s : State), InRange 65536 args →
    s.ready (2 * (args.length + 1)) (respCount (hi ++ lo)) = true →
    exec (operation args) s =
      .next (sending .sendCommand (hi :: lo :: wordBytes args) (respCount (hi ++ lo)) s)

/-- The two shapes of a send (R73): SEND_COMMAND's Words or SEND_RAW_COMMAND's bytes, and the expected response count. -/
inductive SendShape where
  | words (ws : List Int) (expected : Int)
  | bytes (bs : List Int) (expected : Int)
  deriving DecidableEq, Repr

/-- The expected response count of a send. -/
def SendShape.expected : SendShape → Int
  | .words _ n => n
  | .bytes _ n => n

/-- The number of bytes the command has, in range or not (R79, R80). -/
def SendShape.size : SendShape → Nat
  | .words ws _ => 2 * ws.length
  | .bytes bs _ => bs.length

/-- Every element of the send is in range, and these are its wire bytes (R79, R80). -/
def SendShape.Frames : SendShape → List Byte → Prop
  | .words ws _, frame => InRange 65536 ws ∧ frame = wordBytes ws
  | .bytes bs _, frame => InRange 256 bs ∧ frame = rawBytes bs

/-- The send an instruction is, if it is one: the two sends themselves, and every catalog operation, which is one SEND
of its opcode and its arguments with its response count (R200, R204 to R219); the two response counts the source gives
are R201's. -/
def sendOf : Instr → Option SendShape
  | .encodeWord _ => none
  | .decodeWord _ _ => none
  | .packColor _ _ _ => none
  | .sendCommand words expected => some (.words words expected)
  | .sendRawCommand bytes expected => some (.bytes bytes expected)
  | .reserved101 => none
  | .reserved110 => none
  | .reserved111 => none
  | .catRectFilled args => some (.words (0xFFC4 :: args) (respCount 0xFFC4))
  | .catRectOutline args => some (.words (0xFFC5 :: args) (respCount 0xFFC5))
  | .catEllipseFfb1 args => some (.words (0xFFB1 :: args) (respCount 0xFFB1))
  | .catEllipseFfb2 args => some (.words (0xFFB2 :: args) (respCount 0xFFB2))
  | .catLine args => some (.words (0xFFC8 :: args) (respCount 0xFFC8))
  | .catPoly0013 args => some (.words (0x0013 :: args) (respCount 0x0013))
  | .catPoly0014 args => some (.words (0x0014 :: args) (respCount 0x0014))
  | .catPoly0015 args => some (.words (0x0015 :: args) (respCount 0x0015))
  | .catClearScreen => some (.words [0xFFCD] 0)
  | .catSetPixel args => some (.words (0xFFC1 :: args) (respCount 0xFFC1))
  | .catSetCursor args => some (.words (0xFFE9 :: args) (respCount 0xFFE9))
  | .catSetFont args => some (.words (0xFFE5 :: args) (respCount 0xFFE5))
  | .catTextSizeFfe3 args => some (.words (0xFFE3 :: args) (respCount 0xFFE3))
  | .catTextSizeFfe4 args => some (.words (0xFFE4 :: args) (respCount 0xFFE4))
  | .catTextColour args => some (.words (0xFFE7 :: args) (respCount 0xFFE7))
  | .catBgColour args => some (.words (0xFFA4 :: args) (respCount 0xFFA4))
  | .catContrast args => some (.words (0xFF9C :: args) (respCount 0xFF9C))
  | .catOrientation args => some (.words (0xFF9E :: args) (respCount 0xFF9E))
  | .catDisplaySizeQuery m => some (.words [0xFFA6, m] 1)
  | .catTouchMode args => some (.words (0xFF39 :: args) (respCount 0xFF39))
  | .catTouchPoll args => some (.words (0xFF37 :: args) (respCount 0xFF37))

/-- No send waits on the port while the transport is not open. -/
def NoSendWaitsClosed (s : State) : Prop :=
  ∀ r c, s.req = some r → sendOf (decode r) = some c → s.transport.config ≠ none

/-- R21's transitions that the Engine makes by its own step. -/
def enginePhaseStep : Phase → Phase → Bool
  | .idle, .done => true
  | .idle, .tx => true
  | .idle, .awaitingSentinel => true
  | .tx, .tx => true
  | .tx, .awaitingSentinel => true
  | .tx, .done => true
  | .awaitingSentinel, .readingResponse => true
  | .awaitingSentinel, .done => true
  | .readingResponse, .readingResponse => true
  | .readingResponse, .done => true
  | _, _ => false

/-- A request is in progress and its outcome is not there yet. -/
def Busy (s : State) : Prop :=
  s.eng.phase = .tx ∨ s.eng.phase = .awaitingSentinel ∨ s.eng.phase = .readingResponse

end Sys2Proof.Machine.Claims

open Sys2Proof Sys2Proof.Machine Sys2Proof.Machine.Claims

/-! ## Reset and boot -/

/-- R270, R272: reset unsets the Engine record and touches nothing else, and a second reset changes nothing. Model: the
reset is one move (log entry 4). -/
def Obligations.ResetTouchesTheEngineOnly : Prop :=
  ∀ s : State, nextMove s = .reset →
    step s = .next { takeMove s with
      eng := { phase := .idle, op := none, txbuf := none, txidx := none, nresp := none, rxbuf := none,
               outcome := none } } ∧
    resetEngine (resetEngine s) = resetEngine s

/-- R36, R274: opening the transport and then resetting the Engine leaves the reset state: `Idle`, every per-request
field unset. The model's choices: that nothing was sent or received before (log entries 2, 3), and the Engine record
before its first reset (log entry 30), which that reset replaces. -/
def Obligations.BootOrderGivesTheResetState : Prop :=
  resetEngine (openTransport Config.transportConfig State.powerOn) = State.reset ∧
    State.reset.eng =
      { phase := .idle, op := none, txbuf := none, txidx := none, nresp := none, rxbuf := none, outcome := none } ∧
    State.reset.eng.wf = true

/-! ## Decoding and stepping -/

/-- R71, R72, R200: presenting an instruction and decoding the request gives the instruction back, every operand at
every value; and a catalog request, listed or not, is encoded back as itself or as the SEND_COMMAND port request that
carries its opcode, its arguments and its response count, so no Word of it is dropped. No two rows of the catalog
share a Word. -/
def Obligations.DecodeInvertsEncode : Prop :=
  (∀ i : Instr, decode (encode i) = i) ∧
  (∀ (opcode : Word) (args : List Int),
    encode (decode (.catalog opcode args)) = .catalog opcode args ∨
    encode (decode (.catalog opcode args)) =
      .port 0b011 { words := (opcode.toNat : Int) :: args, expected := (respCount opcode : Int) }) ∧
  (catalogTable.map Prod.fst).Nodup

/-- R72, R84, R201, R206, R207: some rows of the opcode table, by their bits. The model's choices: the table's rows carry
no operands, so each is presented with its operands at zero and the display size query (R87) with the argument 0 (log
entry 5); a row CAT_* is a catalog operation with an argument list (log entry 7), and the two of R87 have a fixed one
(log entry 9); a Word that is no row is the plain send of itself with its response count (R153, R220; log entry 7). -/
def Obligations.OpcodeTableWordsDecode : Prop :=
  decodeTableWord 8 0b000 = some (.encodeWord 0) ∧
  decodeTableWord 8 0b001 = some (.decodeWord 0 0) ∧
  decodeTableWord 8 0b010 = some (.packColor 0 0 0) ∧
  decodeTableWord 8 0b011 = some (.sendCommand [] 0) ∧
  decodeTableWord 8 0b100 = some (.sendRawCommand [] 0) ∧
  decodeTableWord 8 0b101 = some .reserved101 ∧
  decodeTableWord 16 0b1111111111001000 = some (.catLine []) ∧
  decodeTableWord 16 0b0000000000010011 = some (.catPoly0013 []) ∧
  decodeTableWord 16 0b1111111111001101 = some .catClearScreen ∧
  decodeTableWord 16 0b1111111110100110 = some (.catDisplaySizeQuery 0) ∧
  decodeTableWord 16 0x1234 = some (.sendCommand [0x1234] (respCount 0x1234#16 : Int))

/-- R75: in `Idle`, the Engine's move on a presented request is the acceptance step of the decoded instruction. The
step adds only that the move is taken (log entry 4). -/
def Obligations.StepRunsThePresentedRequest : Prop :=
  ∀ (s : State) (r : Request) (c : WriteChoice), nextMove s = .engine c → s.eng.phase = .idle → s.req = some r →
    step s = exec (decode r) (takeMove s)

/-- Model (log entry 4): a scripted move is the next move and leaves the script; without a script the next move is the
free one for the clock, and the clock advances. -/
def Obligations.MovesComeFromTheScriptThenFree : Prop :=
  (∀ (s : State) (m : Move) (ms : List Move), s.script = m :: ms →
    step s = applyMove m { s with script := ms }) ∧
  (∀ s : State, s.script = [] →
    step s = applyMove (Config.freeMove s.clock) { s with clock := s.clock + 1 })

/-! ## The pure operations -/

/-- R101, R102: ENCODE_WORD completes in `Idle` with the byte pair, or with RangeError outside [0, 65535]. -/
def Obligations.EncodeWordResult : Prop :=
  ∀ (value : Int) (s : State), s.eng.phase = .idle →
    exec (.encodeWord value) s = .next (ended .encodeWord
      (if 0 ≤ value ∧ value < 65536 then
        .ok (.pair (BitVec.ofInt 8 (value / 256)) (BitVec.ofInt 8 (value % 256)))
      else .rangeError) s)

/-- R104, R105: DECODE_WORD completes in `Idle` with the Word, or with RangeError where a byte is outside [0, 255]. -/
def Obligations.DecodeWordResult : Prop :=
  ∀ (high low : Int) (s : State), s.eng.phase = .idle →
    exec (.decodeWord high low) s = .next (ended .decodeWord
      (if (0 ≤ high ∧ high < 256) ∧ (0 ≤ low ∧ low < 256) then
        .ok (.word (BitVec.ofInt 16 (high * 256 + low)))
      else .rangeError) s)

/-- R121, R122: PACK_COLOR of non-negative channels completes in `Idle` with the packed Word; each channel saturates
at its maximum. -/
def Obligations.PackColorResult : Prop :=
  ∀ (red green blue : Int) (s : State), 0 ≤ red → 0 ≤ green → 0 ≤ blue → s.eng.phase = .idle →
    exec (.packColor red green blue) s = .next (ended .packColor
      (.ok (.word (BitVec.ofInt 16 (min red 31 * 2048 + min green 63 * 32 + min blue 31)))) s)

/-- R107, R108: the two inverse laws of the codec. -/
def Obligations.CodecInverseLaws : Prop :=
  (∀ v : Int, 0 ≤ v → v ≤ 65535 →
    ∃ hi lo : Byte, encodeWord v = some (hi, lo) ∧
      decodeWord (hi.toNat : Int) (lo.toNat : Int) = some (BitVec.ofInt 16 v)) ∧
  (∀ h l : Int, 0 ≤ h → h ≤ 255 → 0 ≤ l → l ≤ 255 →
    ∃ w : Word, decodeWord h l = some w ∧
      encodeWord (w.toNat : Int) = some (BitVec.ofInt 8 h, BitVec.ofInt 8 l))

/-- R103, R110: whatever `encode_word` returns recombines to its operand, and whatever `decode_word` returns is the sum
of its operands, so nothing is truncated; outside its range, however far, each returns nothing (RangeError). -/
def Obligations.CodecNeverWraps : Prop :=
  (∀ (v : Int) (hi lo : Byte), encodeWord v = some (hi, lo) → v = (hi.toNat : Int) * 256 + (lo.toNat : Int)) ∧
  (∀ (h l : Int) (w : Word), decodeWord h l = some w → (w.toNat : Int) = h * 256 + l) ∧
  (∀ v : Int, v < 0 ∨ 65536 ≤ v → encodeWord v = none) ∧
  (∀ h l : Int, (h < 0 ∨ 256 ≤ h) ∨ (l < 0 ∨ 256 ≤ l) → decodeWord h l = none)

/-- R123: the fields of the packed Word, each its own channel's; they are disjoint, so the Word is their sum. -/
def Obligations.PackedColourFields : Prop :=
  ∀ red green blue : Nat,
    ((packColor red green blue).extractLsb 15 11).toNat = min red 31 ∧
    ((packColor red green blue).extractLsb 10 5).toNat = min green 63 ∧
    ((packColor red green blue).extractLsb 4 0).toNat = min blue 31 ∧
    (packColor red green blue).toNat = min red 31 * 2048 + min green 63 * 32 + min blue 31

/-! ## Refusals -/

/-- R74, R84: what is refused, and under which name. Which of two refusals is named where both apply is the model's
choice (log entry 12). -/
def Obligations.RefusedRequests : Prop :=
  (∀ s : State, exec .reserved101 s = .refused .reservedOp ∧ exec .reserved110 s = .refused .reservedOp ∧
    exec .reserved111 s = .refused .reservedOp) ∧
  (∀ (red green blue : Int) (s : State), red < 0 ∨ green < 0 ∨ blue < 0 →
    exec (.packColor red green blue) s = .refused .negativeChannel) ∧
  (∀ (vs : List Int) (n : Int) (s : State), n < 0 →
    exec (.sendCommand vs n) s = .refused .negativeCount ∧
    exec (.sendRawCommand vs n) s = .refused .negativeCount) ∧
  (∀ (vs : List Int) (n : Nat) (s : State),
    overBound s.bounds.maxCmdBytes (2 * vs.length) = true ∨ overBound s.bounds.maxRespWords n = true →
    exec (.sendCommand vs n) s = .refused .tooLong) ∧
  (∀ (vs : List Int) (n : Nat) (s : State),
    overBound s.bounds.maxCmdBytes vs.length = true ∨ overBound s.bounds.maxRespWords n = true →
    exec (.sendRawCommand vs n) s = .refused .tooLong) ∧
  (∀ (vs : List Int) (n : Nat) (s : State), s.transport.config = none →
    overBound s.bounds.maxCmdBytes (2 * vs.length) = false → overBound s.bounds.maxRespWords n = false →
    exec (.sendCommand vs n) s = .refused .transportNotOpen) ∧
  (∀ (vs : List Int) (n : Nat) (s : State), s.transport.config = none →
    overBound s.bounds.maxCmdBytes vs.length = false → overBound s.bounds.maxRespWords n = false →
    exec (.sendRawCommand vs n) s = .refused .transportNotOpen)

/-- R74, R84, R273: every refusal has its own reason, and nothing else is refused. `ReservedOp` is a reserved selector's,
`NegativeChannel` a PACK_COLOR's with a negative channel, `NegativeCount` a send's with a negative count, `TooLong` a
send's over a bound, and `TransportNotOpen` a send's while the transport is not open; a catalog operation is a send,
whatever its Word (R220; log entry 7). Where a negative count meets `TooLong` or `TransportNotOpen`, that
`NegativeCount` is the one named is the model's choice (log entry 12, DESIGN CHOICE). -/
def Obligations.NothingElseIsRefused : Prop :=
  ∀ (i : Instr) (s : State) (r : Refusal), exec i s = .refused r →
    (r = .reservedOp ∧ (i = .reserved101 ∨ i = .reserved110 ∨ i = .reserved111)) ∨
    (r = .negativeChannel ∧ ∃ red green blue, i = .packColor red green blue ∧ (red < 0 ∨ green < 0 ∨ blue < 0)) ∨
    (∃ c, sendOf i = some c ∧ r = .negativeCount ∧ c.expected < 0) ∨
    (∃ (c : SendShape) (n : Nat), sendOf i = some c ∧ c.expected = (n : Int) ∧
      ((r = .tooLong ∧
          (overBound s.bounds.maxCmdBytes c.size = true ∨ overBound s.bounds.maxRespWords n = true)) ∨
        (r = .transportNotOpen ∧ s.transport.config = none)))

/-! ## The sends: acceptance -/

/-- R142: SEND_COMMAND's acceptance step. RangeError with no byte written if any Word is out of range, else the frame,
the counters and the phase. -/
def Obligations.SendCommandAccepted : Prop :=
  ∀ (words : List Int) (n : Nat) (s : State), s.ready (2 * words.length) n = true →
    (InRange 65536 words →
      exec (.sendCommand words n) s = .next (sending .sendCommand (wordBytes words) n s)) ∧
    (¬ InRange 65536 words →
      exec (.sendCommand words n) s = .next (ended .sendCommand .rangeError s))

/-- R151: SEND_RAW_COMMAND's acceptance step. -/
def Obligations.SendRawCommandAccepted : Prop :=
  ∀ (bytes : List Int) (n : Nat) (s : State), s.ready bytes.length n = true →
    (InRange 256 bytes →
      exec (.sendRawCommand bytes n) s = .next (sending .sendRawCommand (rawBytes bytes) n s)) ∧
    (¬ InRange 256 bytes →
      exec (.sendRawCommand bytes n) s = .next (ended .sendRawCommand .rangeError s))

/-- R204 to R207, R209: the drawing operations are sends of these wire bytes. -/
def Obligations.DrawingOperationsSend : Prop :=
  CatalogSends .catRectFilled 0xFF 0xC4 ∧ CatalogSends .catRectOutline 0xFF 0xC5 ∧
  CatalogSends .catEllipseFfb1 0xFF 0xB1 ∧ CatalogSends .catEllipseFfb2 0xFF 0xB2 ∧
  CatalogSends .catLine 0xFF 0xC8 ∧ CatalogSends .catPoly0013 0x00 0x13 ∧
  CatalogSends .catPoly0014 0x00 0x14 ∧ CatalogSends .catPoly0015 0x00 0x15 ∧
  CatalogSends .catSetPixel 0xFF 0xC1

/-- R210 to R214: the text and colour operations are sends of these wire bytes. -/
def Obligations.TextOperationsSend : Prop :=
  CatalogSends .catSetCursor 0xFF 0xE9 ∧ CatalogSends .catSetFont 0xFF 0xE5 ∧
  CatalogSends .catTextSizeFfe3 0xFF 0xE3 ∧ CatalogSends .catTextSizeFfe4 0xFF 0xE4 ∧
  CatalogSends .catTextColour 0xFF 0xE7 ∧ CatalogSends .catBgColour 0xFF 0xA4

/-- R216, R218, R219: the orientation and touch operations are sends of these wire bytes. -/
def Obligations.PanelOperationsSend : Prop :=
  CatalogSends .catOrientation 0xFF 0x9E ∧ CatalogSends .catTouchMode 0xFF 0x39 ∧
  CatalogSends .catTouchPoll 0xFF 0x37

/-- R87, R201: the two operations whose response count the source gives. A query argument outside [0, 65535] ends with
RangeError (R141). -/
def Obligations.CountedOperationsSend : Prop :=
  (∀ s : State, s.ready 2 0 = true →
    exec .catClearScreen s = .next (sending .sendCommand [0xFF, 0xCD] 0 s)) ∧
  (∀ (m : Int) (s : State), s.ready 4 1 = true →
    exec (.catDisplaySizeQuery m) s = .next
      (if 0 ≤ m ∧ m < 65536 then
        sending .sendCommand [0xFF, 0xA6, BitVec.ofInt 8 (m / 256), BitVec.ofInt 8 (m % 256)] 1 s
      else ended .sendCommand .rangeError s))

/-- R215, R222: CAT_CONTRAST is a send of `FF 9C` and its arguments, and it sets the contrast cache. The moment of the
setting is the model's choice, and the value a free one (log entry 10). -/
def Obligations.ContrastSendsAndCaches : Prop :=
  ∀ (args : List Int) (s : State), InRange 65536 args →
    s.ready (2 * (args.length + 1)) (respCount 0xFF9C) = true →
    exec (.catContrast args) s = .next (sending .sendCommand (0xFF :: 0x9C :: wordBytes args) (respCount 0xFF9C)
      { s with contrast := Config.contrastAfter args s.contrast })

/-- R200, R153: a catalog request of any opcode Word, listed or not, acts in every state as the plain send of that
opcode, its arguments and its response count, RangeError and refusals included (log entry 7). For 0xFF9C the contrast
cache is set too (R215, R222). The model's choice (log entry 10, DESIGN CHOICE): it is set in the acceptance step, one
that ends in RangeError included, to a free value. -/
def Obligations.CatalogRequestIsOneSend : Prop :=
  ∀ (opcode : Word) (args : List Int) (s : State),
    (opcode ≠ 0xFF9C →
      exec (decodeCatalog opcode args) s = exec (.sendCommand ((opcode.toNat : Int) :: args) (respCount opcode)) s) ∧
    (s.eng.phase = .idle →
      exec (decodeCatalog 0xFF9C args) s =
        exec (.sendCommand (0xFF9C :: args) (respCount 0xFF9C))
          { s with contrast := Config.contrastAfter args s.contrast })

/-- R79, R80: the frames. A word frame exists exactly for Words in range and then has two bytes a Word, high first; a
raw frame exists exactly for bytes in range and is those bytes. -/
def Obligations.FramesHaveTheirBytes : Prop :=
  (∀ (words : List Int) (frame : List Byte),
    wordFrame words = some frame ↔ InRange 65536 words ∧ frame = wordBytes words) ∧
  (∀ words : List Int, (wordBytes words).length = 2 * words.length) ∧
  (∀ (bytes : List Int) (frame : List Byte),
    rawFrame bytes = some frame ↔ InRange 256 bytes ∧ frame = rawBytes bytes) ∧
  (∀ bytes : List Int, (rawBytes bytes).length = bytes.length)

/-- R102, R105, R122, R142, R151: an acceptance step makes no transport access: whatever the instruction, the streams,
the transport's parameters and the bounds stay, and only CAT_CONTRAST touches the contrast cache. -/
def Obligations.AcceptanceTouchesNoTransport : Prop :=
  ∀ (i : Instr) (s t : State), exec i s = .next t →
    t.transport = s.transport ∧ t.bounds = s.bounds ∧ t.script = s.script ∧ t.clock = s.clock ∧
    (t.contrast = s.contrast ∨ ∃ args, i = .catContrast args)

/-! ## The transmit step -/

/-- R143: the transmit step on `WOk`. -/
def Obligations.TransmitOnOk : Prop :=
  ∀ (s : State) (frame : List Byte) (k : Nat) (b : Byte),
    nextMove s = .engine .ok → s.eng.phase = .tx → s.eng.txbuf = some frame → s.eng.txidx = some k →
    frame[k]? = some b →
    step s = .next { takeMove s with
      transport := { s.transport with tx := s.transport.tx ++ [b] }
      eng := { s.eng with
        txidx := some (k + 1)
        phase := if k + 1 = frame.length then .awaitingSentinel else .tx } }

/-- R144, R53: the transmit step on `WTimeout`; whether the byte reached `T.tx` is the Transport's draw. -/
def Obligations.TransmitOnTimeout : Prop :=
  ∀ (s : State) (frame : List Byte) (k : Nat) (b : Byte) (delivered : Bool),
    nextMove s = .engine (.timeout delivered) → s.eng.phase = .tx → s.eng.txbuf = some frame →
    s.eng.txidx = some k → frame[k]? = some b →
    step s = .next (endedWith .communicationError
      (if delivered then s.transport.tx ++ [b] else s.transport.tx) s.transport.rx (takeMove s))

/-- R145, R53: the transmit step on `WFail(e)`; `e` is passed through unchanged. -/
def Obligations.TransmitOnFailure : Prop :=
  ∀ (s : State) (frame : List Byte) (k : Nat) (b : Byte) (e : FailureValue) (delivered : Bool),
    nextMove s = .engine (.fail e delivered) → s.eng.phase = .tx → s.eng.txbuf = some frame →
    s.eng.txidx = some k → frame[k]? = some b →
    step s = .next (endedWith (.transportWriteFailure e)
      (if delivered then s.transport.tx ++ [b] else s.transport.tx) s.transport.rx (takeMove s))

/-! ## The acknowledgement reader -/

/-- R171: the sentinel read on `Timeout`, which is the answer where no byte waits (R54). -/
def Obligations.SentinelOnTimeout : Prop :=
  ∀ (s : State) (c : WriteChoice), nextMove s = .engine c → s.eng.phase = .awaitingSentinel →
    s.transport.rx = [] →
    step s = .next (endedWith .communicationError s.transport.tx [] (takeMove s))

/-- R172: a first byte other than `0x06` is consumed and ends the request with ProtocolError. -/
def Obligations.SentinelOnWrongByte : Prop :=
  ∀ (s : State) (c : WriteChoice) (b : Byte) (rest : List Byte), nextMove s = .engine c →
    s.eng.phase = .awaitingSentinel → s.transport.rx = b :: rest → b ≠ 0x06 →
    step s = .next (endedWith (.protocolError b) s.transport.tx rest (takeMove s))

/-- R173: the sentinel with no response expected. -/
def Obligations.SentinelWithNoResponse : Prop :=
  ∀ (s : State) (c : WriteChoice) (rest : List Byte), nextMove s = .engine c →
    s.eng.phase = .awaitingSentinel → s.transport.rx = 0x06 :: rest → s.eng.nresp = some 0 →
    step s = .next (endedWith (.ok (.words [])) s.transport.tx rest (takeMove s))

/-- R174: the sentinel with a response expected. -/
def Obligations.SentinelWithResponse : Prop :=
  ∀ (s : State) (c : WriteChoice) (rest : List Byte) (n : Nat), nextMove s = .engine c →
    s.eng.phase = .awaitingSentinel → s.transport.rx = 0x06 :: rest → s.eng.nresp = some n → 0 < n →
    step s = .next { takeMove s with
      transport := { s.transport with rx := rest }
      eng := { s.eng with rxbuf := some [], phase := .readingResponse } }

/-- R175: a response read on `Timeout` ends the request and delivers no partial value. -/
def Obligations.ResponseOnTimeout : Prop :=
  ∀ (s : State) (c : WriteChoice), nextMove s = .engine c → s.eng.phase = .readingResponse →
    s.transport.rx = [] →
    step s = .next (endedWith .communicationError s.transport.tx [] (takeMove s))

/-- R176: a response byte joins `S.rxbuf`; the last one ends the request with the Words, high byte first. -/
def Obligations.ResponseOnByte : Prop :=
  ∀ (s : State) (c : WriteChoice) (b : Byte) (rest got : List Byte) (n : Nat), nextMove s = .engine c →
    s.eng.phase = .readingResponse → s.transport.rx = b :: rest → s.eng.rxbuf = some got →
    s.eng.nresp = some n →
    (got.length + 1 = 2 * n →
      step s = .next (endedWith (.ok (.words (wordsOf n (got ++ [b])))) s.transport.tx rest (takeMove s))) ∧
    (got.length + 1 ≠ 2 * n →
      step s = .next { takeMove s with
        transport := { s.transport with rx := rest }
        eng := { s.eng with rxbuf := some (got ++ [b]) } })

/-! ## Outcomes, ports and the Host -/

/-- R76, R250: `rsp_ack` in `Done` takes the Engine to `Idle` with every per-request field unset. -/
def Obligations.AcknowledgeReturnsToIdle : Prop :=
  ∀ s : State, nextMove s = .ack → s.eng.phase = .done →
    step s = .next { takeMove s with
      eng := { phase := .idle, op := none, txbuf := none, txidx := none, nresp := none, rxbuf := none,
               outcome := none } }

/-- R76, R252: in `Done`, a step that is neither `rsp_ack` nor a reset leaves the whole Engine record, and the Engine
writes nothing and reads nothing. -/
def Obligations.DoneHoldsItsOutcome : Prop :=
  ∀ s t : State, s.eng.phase = .done → step s = .next t → nextMove s ≠ .ack → nextMove s ≠ .reset →
    t.eng = s.eng ∧ t.transport.tx = s.transport.tx ∧ ∃ sent, t.transport.rx = s.transport.rx ++ sent

/-- R75: outside `Idle` a presented request is neither accepted, dropped nor replaced, whatever the step; and a
well-formed instruction that is not refused leaves such a state as it is. -/
def Obligations.BusyRequestIsHeld : Prop :=
  (∀ (s t : State) (r : Request), s.eng.phase ≠ .idle → s.req = some r → step s = .next t → t.req = some r) ∧
  (∀ (i : Instr) (s t : State), s.eng.phase ≠ .idle → exec i s = .next t → t = s)

/-- R70, R77, R78: the output ports. Reading an outcome outside `Done` is a fault (R28). -/
def Obligations.OutputPorts : Prop :=
  (∀ s : State, (reqReady s = true ↔ s.eng.phase = .idle) ∧ (rspValid s = true ↔ s.eng.phase = .done)) ∧
  (∀ (s : State) (o : RequestOutcome), s.eng.phase = .done → s.eng.outcome = some o →
    rspStatus s = .ok (match o with
      | .ok _ => 0
      | .rangeError => 1
      | .communicationError => 2
      | .protocolError _ => 3
      | .transportWriteFailure _ => 4) ∧
    rspPayload s = .ok (match o with
      | .ok v => .value v
      | .rangeError => .none
      | .communicationError => .none
      | .protocolError b => .byte b
      | .transportWriteFailure e => .failure e)) ∧
  (∀ s : State, s.eng.phase ≠ .done → rspStatus s = .error (.unset .outcome) ∧
    rspPayload s = .error (.unset .outcome))

/-- R75, R71: a request that fits the operand ports is presented where none is: a send where the transport is open, and
any other request, open or not (R273); a send on a closed transport is SendPresentedBeforeOpenIsRefused's. A request
that does not fit is not presented, and neither is a second one. The model's choices: a reserved selector, a negative
channel and, with the transport open, a negative count or a length over a bound are put on the port and not refused in
this step (log entry 29, DESIGN CHOICE); a second request has no effect (log entry 15); and what fits is a two's
complement width, a catalog request's opcode, arguments and response count included (log entry 17). -/
def Obligations.PresentingARequest : Prop :=
  ∀ (s : State) (r : Request), nextMove s = .present r →
    (s.req = none → r.fits s.bounds.operandWidth = true →
      (sendOf (decode r) = none ∨ s.transport.config ≠ none) →
      step s = .next { takeMove s with req := some r }) ∧
    (s.req = none → r.fits s.bounds.operandWidth = false → step s = .next (takeMove s)) ∧
    (∀ r', s.req = some r' → step s = .next (takeMove s))

/-- R273, R74: a send, of either form or of the catalog, presented while the transport is not open is refused in that
step, whatever the phase, and so is never accepted: as `TransportNotOpen`, where no other refusal applies. The model's
choice is the name where two apply (log entry 12). -/
def Obligations.SendPresentedBeforeOpenIsRefused : Prop :=
  ∀ (s : State) (r : Request) (c : SendShape), nextMove s = .present r → s.req = none →
    r.fits s.bounds.operandWidth = true → sendOf (decode r) = some c → s.transport.config = none →
    (c.expected < 0 → step s = .refused .negativeCount) ∧
    (∀ n : Nat, c.expected = (n : Int) →
      overBound s.bounds.maxCmdBytes c.size = true ∨ overBound s.bounds.maxRespWords n = true →
      step s = .refused .tooLong) ∧
    (∀ n : Nat, c.expected = (n : Int) →
      overBound s.bounds.maxCmdBytes c.size = false → overBound s.bounds.maxRespWords n = false →
      step s = .refused .transportNotOpen)

/-- R273: every step of any agent keeps it so that no send waits on the port of a closed transport; `open` finds none
there to let in. -/
def Obligations.NoStepLetsASendWaitClosed : Prop :=
  ∀ s t : State, NoSendWaitsClosed s → step s = .next t → NoSendWaitsClosed t

/-- R273: before `open` and in the reset state no send waits on a closed transport. That the port starts empty is the
model's choice (log entry 24). -/
def Obligations.NoSendWaitsClosedAtStart : Prop :=
  NoSendWaitsClosed State.powerOn ∧ NoSendWaitsClosed State.reset

/-- The model's choices beside R76 and R31, which give these acts no effect: `rsp_ack` outside `Done` (log entry 15) and
`open` on an open transport (log entry 16) leave the whole state, but for the move being taken. -/
def Obligations.HostActsWithoutEffect : Prop :=
  (∀ s : State, nextMove s = .ack → s.eng.phase ≠ .done → step s = .next (takeMove s)) ∧
  (∀ (s : State) (c c' : TransportConfig), nextMove s = .openTransport c → s.transport.config = some c' →
    step s = .next (takeMove s))

/-- R52, R54: a device byte joins the end of `T.rx` whatever the Engine does. -/
def Obligations.DeviceByteArrives : Prop :=
  ∀ (s : State) (b : Byte), nextMove s = .device b →
    step s = .next { takeMove s with transport := { s.transport with rx := s.transport.rx ++ [b] } }

/-- R31: the transport's parameters are set once, by `open`, and no step changes them after. R8: no step changes the
bounds. The model's choices: a second `open` keeps the first's parameters (log entry 16), and R8's bounds are fields of
State (log entry 17). -/
def Obligations.ParametersAreSetOnce : Prop :=
  (∀ (s : State) (c : TransportConfig), nextMove s = .openTransport c → s.transport.config = none →
    step s = .next { takeMove s with transport := { s.transport with config := some c } }) ∧
  (∀ (s t : State) (c : TransportConfig), s.transport.config = some c → step s = .next t →
    t.transport.config = some c) ∧
  (∀ s t : State, step s = .next t → t.bounds = s.bounds)

/-! ## Every step -/

/-- R21 to R28: every step of any agent keeps the Engine record well formed: each field holds a value in exactly the
phases R28 gives it, and the counters stay in their bounds (R23, R25). -/
def Obligations.StepKeepsTheEngineWellFormed : Prop :=
  ∀ s t : State, s.eng.wf = true → step s = .next t → t.eng.wf = true

/-- R28: from a well-formed Engine record no step of any agent faults: no step reads a field that holds no value. -/
def Obligations.WellFormedStepNeverFaults : Prop :=
  ∀ (s : State) (f : Fault), s.eng.wf = true → step s ≠ .fault f

/-- R21: the phase changes only by the listed transitions: the Engine's own, `rsp_ack` in `Done`, and reset (R270). -/
def Obligations.PhaseTransitionsAreLegal : Prop :=
  ∀ s t : State, step s = .next t →
    (∀ c, nextMove s = .engine c →
      enginePhaseStep s.eng.phase t.eng.phase = true ∨
      (t = takeMove s ∧ ((s.eng.phase = .idle ∧ s.req = none) ∨ s.eng.phase = .done))) ∧
    ((∀ c, nextMove s ≠ .engine c) →
      t.eng.phase = s.eng.phase ∨
      (nextMove s = .ack ∧ s.eng.phase = .done ∧ t.eng.phase = .idle) ∨
      (nextMove s = .reset ∧ t.eng.phase = .idle))

/-- R22 to R24: while a request is in progress, and until it is consumed or reset, its operation, frame and response
count are those latched at acceptance. -/
def Obligations.LatchedFieldsStay : Prop :=
  ∀ s t : State, Busy s → step s = .next t → t.eng.phase ≠ .idle →
    t.eng.op = s.eng.op ∧ t.eng.txbuf = s.eng.txbuf ∧ t.eng.nresp = s.eng.nresp

/-- R33, R50, R59: `T.tx` only grows, by at most one byte a step, only by the Engine's move in `Tx`; a byte leaves
`T.rx` only from its front, only by the Engine's move in the two reading phases (R155), and joins it only by a device
step. -/
def Obligations.StreamAccessesByPhase : Prop :=
  ∀ s t : State, step s = .next t →
    (t.transport.tx = s.transport.tx ∨
      (s.eng.phase = .tx ∧ ∃ c b, nextMove s = .engine c ∧ t.transport.tx = s.transport.tx ++ [b])) ∧
    (t.transport.rx = s.transport.rx ∨
      ((s.eng.phase = .awaitingSentinel ∨ s.eng.phase = .readingResponse) ∧
        ∃ c b, nextMove s = .engine c ∧ s.transport.rx = b :: t.transport.rx) ∨
      (∃ b, nextMove s = .device b ∧ t.transport.rx = s.transport.rx ++ [b]))

/-- R244, R27, R78: every step into `Done`, or within it, leaves an operation and an outcome that operation can have,
the `Ok` value in the operation's own shape. PACK_COLOR ends in no RangeError; a send's `Ok` has exactly `S.nresp` Words,
and its `ProtocolError` no `0x06` (R172). -/
def Obligations.OutcomesByOperation : Prop :=
  ∀ s t : State, s.eng.wf = true → step s = .next t → t.eng.phase = .done →
    ∃ op o, t.eng.op = some op ∧ t.eng.outcome = some o ∧
      (op = .encodeWord → (∃ hi lo, o = .ok (.pair hi lo)) ∨ o = .rangeError) ∧
      (op = .decodeWord → (∃ w, o = .ok (.word w)) ∨ o = .rangeError) ∧
      (op = .packColor → ∃ w, o = .ok (.word w)) ∧
      (op = .sendCommand ∨ op = .sendRawCommand →
        (∃ ws, o = .ok (.words ws) ∧ t.eng.nresp = some ws.length) ∨ o = .rangeError ∨ o = .communicationError ∨
        (∃ b, o = .protocolError b ∧ b ≠ 0x06) ∨ ∃ e, o = .transportWriteFailure e)

/-! ## Whole requests -/

/-- R282: a busy request reaches `Done` by Engine steps alone, whatever the Transport answers and whatever stands in
`T.rx`, within the steps it has left; and an accepted request has at most `len(S.txbuf) + 1 + 2 * S.nresp` left. -/
def Obligations.EveryRequestReachesDone : Prop :=
  (∀ (s : State) (choices : List WriteChoice) (rest : List Move), s.eng.wf = true → s.eng.phase ≠ .idle →
    s.script = choices.map Move.engine ++ rest → s.eng.remaining ≤ choices.length →
    ∃ t : State, Host.Core.run Sys2Proof.core choices.length s = .next t ∧ t.eng.phase = .done) ∧
  (∀ (i : Instr) (s t : State), s.eng.wf = true → s.eng.phase = .idle → exec i s = .next t →
    t.eng.phase ≠ .idle ∧ t.eng.wf = true ∧
    t.eng.remaining ≤ (t.eng.txbuf.getD []).length + 1 + 2 * t.eng.nresp.getD 0)

/-- R81, R156, R170, R178, R179: the whole successful cycle of every send: SEND_COMMAND, SEND_RAW_COMMAND and every
catalog operation (R200). With every write answered `WOk` and the reply waiting, after `2 + len(frame) + 2n` Engine
steps the outcome is the `n` decoded Words, `T.tx` has grown by exactly the frame, and exactly the bytes after the reply
are left in `T.rx`. -/
def Obligations.SendCycleSucceeds : Prop :=
  ∀ (s : State) (r : Request) (c : SendShape) (n : Nat) (frame reply residue : List Byte) (moves : List Move),
    sendOf (decode r) = some c → c.expected = (n : Int) → c.Frames frame →
    s.req = some r → s.ready frame.length n = true →
    s.script = List.replicate (2 + frame.length + 2 * n) (.engine .ok) ++ moves →
    s.transport.rx = 0x06 :: (reply ++ residue) → reply.length = 2 * n →
    ∃ t : State, Host.Core.run Sys2Proof.core (2 + frame.length + 2 * n) s = .next t ∧
      t.eng.phase = .done ∧ t.eng.outcome = some (.ok (.words (wordsOf n reply))) ∧
      t.transport.tx = s.transport.tx ++ frame ∧ t.transport.rx = residue ∧
      t.script = moves ∧ t.req = none

/-- R147, R148, R154: a send whose write of byte `k` fails has written the bytes before it, and byte `k` itself only if
the Transport's draw says so; nothing is retried, nothing is read, and the outcome is the failure's. -/
def Obligations.FailedWriteKeepsEarlierBytes : Prop :=
  ∀ (s : State) (frame : List Byte) (k : Nat) (b : Byte) (c : WriteChoice) (moves : List Move) (o : RequestOutcome),
    s.eng.phase = .tx → s.eng.txbuf = some frame → s.eng.txidx = some 0 → frame[k]? = some b →
    ((c = .timeout true ∨ c = .timeout false) ∧ o = .communicationError) ∨
      (∃ e d, c = .fail e d ∧ o = .transportWriteFailure e) →
    s.script = List.replicate k (.engine .ok) ++ .engine c :: moves →
    ∃ t : State, Host.Core.run Sys2Proof.core (k + 1) s = .next t ∧
      t.eng.phase = .done ∧ t.eng.outcome = some o ∧ t.eng.txidx = some k ∧
      t.transport.tx = s.transport.tx ++ frame.take k ++ (if byteDelivered c then [b] else []) ∧
      t.transport.rx = s.transport.rx ∧ t.script = moves

/-- R34, R172, R179, R277: the residue of one request is read as the reply to the next: after `rsp_ack`, the next
send's acknowledgement, of any send, starts with the first byte left over. A byte other than `0x06` there ends it with
ProtocolError; `0x06` there makes the bytes after it its response Words, and nothing detects it. -/
def Obligations.ResidueIsReadAsTheNextSentinel : Prop :=
  ∀ (s : State) (r : Request) (c : SendShape) (n : Nat) (frame : List Byte) (moves : List Move),
    s.eng.phase = .done → s.req = some r →
    sendOf (decode r) = some c → c.expected = (n : Int) → c.Frames frame →
    s.transport.config.isSome = true → overBound s.bounds.maxCmdBytes frame.length = false →
    overBound s.bounds.maxRespWords n = false →
    (∀ (b : Byte) (rest : List Byte), s.transport.rx = b :: rest → b ≠ 0x06 →
      s.script = .ack :: List.replicate (2 + frame.length) (.engine .ok) ++ moves →
      ∃ t : State, Host.Core.run Sys2Proof.core (3 + frame.length) s = .next t ∧
        t.eng.phase = .done ∧ t.eng.outcome = some (.protocolError b) ∧
        t.transport.tx = s.transport.tx ++ frame ∧ t.transport.rx = rest) ∧
    (∀ stale rest : List Byte, s.transport.rx = 0x06 :: (stale ++ rest) → stale.length = 2 * n →
      s.script = .ack :: List.replicate (2 + frame.length + 2 * n) (.engine .ok) ++ moves →
      ∃ t : State, Host.Core.run Sys2Proof.core (3 + frame.length + 2 * n) s = .next t ∧
        t.eng.phase = .done ∧ t.eng.outcome = some (.ok (.words (wordsOf n stale))) ∧
        t.transport.tx = s.transport.tx ++ frame ∧ t.transport.rx = rest)
end

