-- ==== Sys2Proof/Laws/Codec.lean ====
section
/-! SUPPORT. Operand assembly as arithmetic: the bit forms of the codec, packer and frames as integer expressions. -/

namespace Sys2Proof.Machine

theorem byteOperand_of_range {v : Int} (h0 : 0 ≤ v) (h1 : v < 256) : byteOperand v = some (BitVec.ofInt 8 v) := by
  simp [byteOperand]; omega

theorem byteOperand_none {v : Int} (h : v < 0 ∨ 256 ≤ v) : byteOperand v = none := by
  simp [byteOperand]; omega

theorem wordOperand_of_range {v : Int} (h0 : 0 ≤ v) (h1 : v < 65536) :
    wordOperand v = some (BitVec.ofInt 16 v) := by
  simp [wordOperand]; omega

theorem wordOperand_none {v : Int} (h : v < 0 ∨ 65536 ≤ v) : wordOperand v = none := by
  simp [wordOperand]; omega

/-- The high byte is the quotient by 256 and the low byte the remainder. -/
theorem splitWord_toNat (w : Word) :
    (splitWord w).1.toNat = w.toNat / 256 ∧ (splitWord w).2.toNat = w.toNat % 256 := by
  have h := w.isLt
  refine ⟨?_, ?_⟩
  · simp [splitWord, Nat.shiftRight_eq_div_pow]; omega
  · have h2 : ∀ n : Nat, n &&& 255 = n % 256 := fun n => Nat.and_two_pow_sub_one_eq_mod n 8
    simp [splitWord, h2]

/-- Joining is multiplication by 256 and addition (R104: the OR never overlaps). -/
theorem joinBytes_toNat (h l : Byte) : (joinBytes h l).toNat = h.toNat * 256 + l.toNat := by
  have hh := h.isLt
  have hl := l.isLt
  have e : (h.toNat <<< 8) ||| l.toNat = h.toNat * 256 + l.toNat := by
    rw [← Nat.shiftLeft_add_eq_or_of_lt (by omega : l.toNat < 2 ^ 8), Nat.shiftLeft_eq]
  have hm : h.toNat <<< 8 % 65536 = h.toNat <<< 8 := Nat.mod_eq_of_lt (by rw [Nat.shiftLeft_eq]; omega)
  simp only [joinBytes, BitVec.toNat_or, BitVec.toNat_shiftLeft, BitVec.toNat_setWidth]
  rw [Nat.mod_eq_of_lt (by omega : h.toNat < 2 ^ 16), Nat.mod_eq_of_lt (by omega : l.toNat < 2 ^ 16)]
  simpa [hm] using e

/-- The packed Word as a sum: the three fields are disjoint (R123). -/
theorem packColor_toNat (red green blue : Nat) :
    (packColor red green blue).toNat = min red 31 * 2048 + min green 63 * 32 + min blue 31 := by
  have hr : min red 31 < 32 := by omega
  have hg : min green 63 < 64 := by omega
  have hb : min blue 31 < 32 := by omega
  simp only [packColor, BitVec.toNat_or, BitVec.toNat_shiftLeft, BitVec.toNat_ofNat]
  generalize min red 31 = r at *
  generalize min green 63 = g at *
  generalize min blue 31 = b at *
  have e1 : (r <<< 11) ||| (g <<< 5) = (r * 64 + g) <<< 5 := by
    rw [show r <<< 11 = (r <<< 6) <<< 5 by simp [Nat.shiftLeft_eq]; ring, ← Nat.shiftLeft_or_distrib,
      ← Nat.shiftLeft_add_eq_or_of_lt (by omega : g < 2 ^ 6), Nat.shiftLeft_eq r 6]
  rw [Nat.mod_eq_of_lt (by omega : r < 2 ^ 16), Nat.mod_eq_of_lt (by omega : g < 2 ^ 16),
    Nat.mod_eq_of_lt (by omega : b < 2 ^ 16),
    Nat.mod_eq_of_lt (by rw [Nat.shiftLeft_eq]; omega : r <<< 11 < 2 ^ 16),
    Nat.mod_eq_of_lt (by rw [Nat.shiftLeft_eq]; omega : g <<< 5 < 2 ^ 16), e1,
    ← Nat.shiftLeft_add_eq_or_of_lt (by omega : b < 2 ^ 5), Nat.shiftLeft_eq]
  ring

theorem channels_of_nonneg (red green blue : Nat) :
    channels (red : Int) (green : Int) (blue : Int) = some (red, green, blue) := rfl

end Sys2Proof.Machine
end

