-- ==== Sys2Proof/Laws/State.lean ====
section
/-! SUPPORT. What each shared update of the state does to each field: one lemma per field per update. -/

namespace Sys2Proof.Machine

/-! ## latch -/

@[simp] theorem latch_phase (op : Op) (s : State) :
    (latch op s).eng.phase = s.eng.phase := rfl
@[simp] theorem latch_op (op : Op) (s : State) :
    (latch op s).eng.op = some op := rfl
@[simp] theorem latch_txbuf (op : Op) (s : State) :
    (latch op s).eng.txbuf = s.eng.txbuf := rfl
@[simp] theorem latch_txidx (op : Op) (s : State) :
    (latch op s).eng.txidx = s.eng.txidx := rfl
@[simp] theorem latch_nresp (op : Op) (s : State) :
    (latch op s).eng.nresp = s.eng.nresp := rfl
@[simp] theorem latch_rxbuf (op : Op) (s : State) :
    (latch op s).eng.rxbuf = s.eng.rxbuf := rfl
@[simp] theorem latch_outcome (op : Op) (s : State) :
    (latch op s).eng.outcome = s.eng.outcome := rfl
@[simp] theorem latch_transport (op : Op) (s : State) : (latch op s).transport = s.transport := rfl
@[simp] theorem latch_req (op : Op) (s : State) : (latch op s).req = none := rfl
@[simp] theorem latch_bounds (op : Op) (s : State) : (latch op s).bounds = s.bounds := rfl
@[simp] theorem latch_contrast (op : Op) (s : State) : (latch op s).contrast = s.contrast := rfl
@[simp] theorem latch_script (op : Op) (s : State) : (latch op s).script = s.script := rfl
@[simp] theorem latch_clock (op : Op) (s : State) : (latch op s).clock = s.clock := rfl

/-! ## finish -/

@[simp] theorem finish_phase (o : RequestOutcome) (s : State) :
    (finish o s).eng.phase = .done := rfl
@[simp] theorem finish_op (o : RequestOutcome) (s : State) :
    (finish o s).eng.op = s.eng.op := rfl
@[simp] theorem finish_txbuf (o : RequestOutcome) (s : State) :
    (finish o s).eng.txbuf = s.eng.txbuf := rfl
@[simp] theorem finish_txidx (o : RequestOutcome) (s : State) :
    (finish o s).eng.txidx = s.eng.txidx := rfl
@[simp] theorem finish_nresp (o : RequestOutcome) (s : State) :
    (finish o s).eng.nresp = s.eng.nresp := rfl
@[simp] theorem finish_rxbuf (o : RequestOutcome) (s : State) :
    (finish o s).eng.rxbuf = none := rfl
@[simp] theorem finish_outcome (o : RequestOutcome) (s : State) :
    (finish o s).eng.outcome = some o := rfl
@[simp] theorem finish_transport (o : RequestOutcome) (s : State) : (finish o s).transport = s.transport := rfl
@[simp] theorem finish_req (o : RequestOutcome) (s : State) : (finish o s).req = s.req := rfl
@[simp] theorem finish_bounds (o : RequestOutcome) (s : State) : (finish o s).bounds = s.bounds := rfl
@[simp] theorem finish_contrast (o : RequestOutcome) (s : State) : (finish o s).contrast = s.contrast := rfl
@[simp] theorem finish_script (o : RequestOutcome) (s : State) : (finish o s).script = s.script := rfl
@[simp] theorem finish_clock (o : RequestOutcome) (s : State) : (finish o s).clock = s.clock := rfl

/-! ## beginSend -/

@[simp] theorem beginSend_phase (op : Op) (frame : List Byte) (n : Nat) (s : State) :
    (beginSend op frame n s).eng.phase = if 0 < frame.length then .tx else .awaitingSentinel := rfl
@[simp] theorem beginSend_op (op : Op) (frame : List Byte) (n : Nat) (s : State) :
    (beginSend op frame n s).eng.op = some op := rfl
@[simp] theorem beginSend_txbuf (op : Op) (frame : List Byte) (n : Nat) (s : State) :
    (beginSend op frame n s).eng.txbuf = some frame := rfl
@[simp] theorem beginSend_txidx (op : Op) (frame : List Byte) (n : Nat) (s : State) :
    (beginSend op frame n s).eng.txidx = some 0 := rfl
@[simp] theorem beginSend_nresp (op : Op) (frame : List Byte) (n : Nat) (s : State) :
    (beginSend op frame n s).eng.nresp = some n := rfl
@[simp] theorem beginSend_rxbuf (op : Op) (frame : List Byte) (n : Nat) (s : State) :
    (beginSend op frame n s).eng.rxbuf = s.eng.rxbuf := rfl
@[simp] theorem beginSend_outcome (op : Op) (frame : List Byte) (n : Nat) (s : State) :
    (beginSend op frame n s).eng.outcome = s.eng.outcome := rfl
@[simp] theorem beginSend_transport (op : Op) (frame : List Byte) (n : Nat) (s : State) : (beginSend op frame n s).transport = s.transport := rfl
@[simp] theorem beginSend_req (op : Op) (frame : List Byte) (n : Nat) (s : State) : (beginSend op frame n s).req = none := rfl
@[simp] theorem beginSend_bounds (op : Op) (frame : List Byte) (n : Nat) (s : State) : (beginSend op frame n s).bounds = s.bounds := rfl
@[simp] theorem beginSend_contrast (op : Op) (frame : List Byte) (n : Nat) (s : State) : (beginSend op frame n s).contrast = s.contrast := rfl
@[simp] theorem beginSend_script (op : Op) (frame : List Byte) (n : Nat) (s : State) : (beginSend op frame n s).script = s.script := rfl
@[simp] theorem beginSend_clock (op : Op) (frame : List Byte) (n : Nat) (s : State) : (beginSend op frame n s).clock = s.clock := rfl

/-! ## advance -/

@[simp] theorem advance_phase (len k : Nat) (s : State) :
    (advance len k s).eng.phase = if k + 1 = len then .awaitingSentinel else s.eng.phase := rfl
@[simp] theorem advance_op (len k : Nat) (s : State) :
    (advance len k s).eng.op = s.eng.op := rfl
@[simp] theorem advance_txbuf (len k : Nat) (s : State) :
    (advance len k s).eng.txbuf = s.eng.txbuf := rfl
@[simp] theorem advance_txidx (len k : Nat) (s : State) :
    (advance len k s).eng.txidx = some (k + 1) := rfl
@[simp] theorem advance_nresp (len k : Nat) (s : State) :
    (advance len k s).eng.nresp = s.eng.nresp := rfl
@[simp] theorem advance_rxbuf (len k : Nat) (s : State) :
    (advance len k s).eng.rxbuf = s.eng.rxbuf := rfl
@[simp] theorem advance_outcome (len k : Nat) (s : State) :
    (advance len k s).eng.outcome = s.eng.outcome := rfl
@[simp] theorem advance_transport (len k : Nat) (s : State) : (advance len k s).transport = s.transport := rfl
@[simp] theorem advance_req (len k : Nat) (s : State) : (advance len k s).req = s.req := rfl
@[simp] theorem advance_bounds (len k : Nat) (s : State) : (advance len k s).bounds = s.bounds := rfl
@[simp] theorem advance_contrast (len k : Nat) (s : State) : (advance len k s).contrast = s.contrast := rfl
@[simp] theorem advance_script (len k : Nat) (s : State) : (advance len k s).script = s.script := rfl
@[simp] theorem advance_clock (len k : Nat) (s : State) : (advance len k s).clock = s.clock := rfl

/-! ## resetEngine -/

@[simp] theorem resetEngine_eng (s : State) : (resetEngine s).eng = Engine.reset := rfl
@[simp] theorem resetEngine_transport (s : State) : (resetEngine s).transport = s.transport := rfl
@[simp] theorem resetEngine_req (s : State) : (resetEngine s).req = s.req := rfl
@[simp] theorem resetEngine_bounds (s : State) : (resetEngine s).bounds = s.bounds := rfl
@[simp] theorem resetEngine_contrast (s : State) : (resetEngine s).contrast = s.contrast := rfl
@[simp] theorem resetEngine_script (s : State) : (resetEngine s).script = s.script := rfl
@[simp] theorem resetEngine_clock (s : State) : (resetEngine s).clock = s.clock := rfl

/-! ## deviceSends -/

@[simp] theorem deviceSends_eng (b : Byte) (s : State) : (deviceSends b s).eng = s.eng := rfl
@[simp] theorem deviceSends_transport (b : Byte) (s : State) : (deviceSends b s).transport = deviceAppend b s.transport := rfl
@[simp] theorem deviceSends_req (b : Byte) (s : State) : (deviceSends b s).req = s.req := rfl
@[simp] theorem deviceSends_bounds (b : Byte) (s : State) : (deviceSends b s).bounds = s.bounds := rfl
@[simp] theorem deviceSends_contrast (b : Byte) (s : State) : (deviceSends b s).contrast = s.contrast := rfl
@[simp] theorem deviceSends_script (b : Byte) (s : State) : (deviceSends b s).script = s.script := rfl
@[simp] theorem deviceSends_clock (b : Byte) (s : State) : (deviceSends b s).clock = s.clock := rfl

/-! ## openTransport -/

@[simp] theorem openTransport_eng (c : TransportConfig) (s : State) : (openTransport c s).eng = s.eng := rfl
@[simp] theorem openTransport_transport (c : TransportConfig) (s : State) : (openTransport c s).transport = openWith c s.transport := rfl
@[simp] theorem openTransport_req (c : TransportConfig) (s : State) : (openTransport c s).req = s.req := rfl
@[simp] theorem openTransport_bounds (c : TransportConfig) (s : State) : (openTransport c s).bounds = s.bounds := rfl
@[simp] theorem openTransport_contrast (c : TransportConfig) (s : State) : (openTransport c s).contrast = s.contrast := rfl
@[simp] theorem openTransport_script (c : TransportConfig) (s : State) : (openTransport c s).script = s.script := rfl
@[simp] theorem openTransport_clock (c : TransportConfig) (s : State) : (openTransport c s).clock = s.clock := rfl

/-! ## cacheContrast -/

@[simp] theorem cacheContrast_eng (args : List Int) (s : State) : (cacheContrast args s).eng = s.eng := rfl
@[simp] theorem cacheContrast_transport (args : List Int) (s : State) : (cacheContrast args s).transport = s.transport := rfl
@[simp] theorem cacheContrast_req (args : List Int) (s : State) : (cacheContrast args s).req = s.req := rfl
@[simp] theorem cacheContrast_bounds (args : List Int) (s : State) : (cacheContrast args s).bounds = s.bounds := rfl
@[simp] theorem cacheContrast_contrast (args : List Int) (s : State) : (cacheContrast args s).contrast = Config.contrastAfter args s.contrast := rfl
@[simp] theorem cacheContrast_script (args : List Int) (s : State) : (cacheContrast args s).script = s.script := rfl
@[simp] theorem cacheContrast_clock (args : List Int) (s : State) : (cacheContrast args s).clock = s.clock := rfl

/-! ## takeMove: only the script or the clock -/

@[simp] theorem takeMove_eng (s : State) : (takeMove s).eng = s.eng := by
  unfold takeMove; split <;> rfl
@[simp] theorem takeMove_transport (s : State) : (takeMove s).transport = s.transport := by
  unfold takeMove; split <;> rfl
@[simp] theorem takeMove_req (s : State) : (takeMove s).req = s.req := by
  unfold takeMove; split <;> rfl
@[simp] theorem takeMove_bounds (s : State) : (takeMove s).bounds = s.bounds := by
  unfold takeMove; split <;> rfl
@[simp] theorem takeMove_contrast (s : State) : (takeMove s).contrast = s.contrast := by
  unfold takeMove; split <;> rfl

theorem takeMove_of_script {s : State} {m : Move} {ms : List Move} (h : s.script = m :: ms) :
    takeMove s = { s with script := ms } := by
  simp [takeMove, h]

theorem nextMove_of_script {s : State} {m : Move} {ms : List Move} (h : s.script = m :: ms) :
    nextMove s = m := by
  simp [nextMove, h]

/-! ## acknowledge: everything but the Engine record -/

@[simp] theorem acknowledge_transport (s : State) : (acknowledge s).transport = s.transport := by
  unfold acknowledge; split <;> rfl
@[simp] theorem acknowledge_req (s : State) : (acknowledge s).req = s.req := by
  unfold acknowledge; split <;> rfl
@[simp] theorem acknowledge_bounds (s : State) : (acknowledge s).bounds = s.bounds := by
  unfold acknowledge; split <;> rfl
@[simp] theorem acknowledge_contrast (s : State) : (acknowledge s).contrast = s.contrast := by
  unfold acknowledge; split <;> rfl
@[simp] theorem acknowledge_script (s : State) : (acknowledge s).script = s.script := by
  unfold acknowledge; split <;> rfl
@[simp] theorem acknowledge_clock (s : State) : (acknowledge s).clock = s.clock := by
  unfold acknowledge; split <;> rfl


/-! ## The transport -/

@[simp] theorem txWrite_rx (b : Byte) (c : WriteChoice) (t : Transport) : (txWrite b c t).rx = t.rx := by
  unfold txWrite; split <;> rfl

@[simp] theorem txWrite_config (b : Byte) (c : WriteChoice) (t : Transport) :
    (txWrite b c t).config = t.config := by
  unfold txWrite; split <;> rfl

theorem txWrite_tx (b : Byte) (c : WriteChoice) (t : Transport) :
    (txWrite b c t).tx = t.tx ++ (if byteDelivered c then [b] else []) := by
  unfold txWrite; split <;> simp

@[simp] theorem rxConsume_tx (t : Transport) : (rxConsume t).tx = t.tx := rfl

@[simp] theorem rxConsume_config (t : Transport) : (rxConsume t).config = t.config := rfl

@[simp] theorem rxConsume_rx (t : Transport) : (rxConsume t).rx = t.rx.tail := rfl

@[simp] theorem deviceAppend_tx (b : Byte) (t : Transport) : (deviceAppend b t).tx = t.tx := rfl

@[simp] theorem deviceAppend_rx (b : Byte) (t : Transport) : (deviceAppend b t).rx = t.rx ++ [b] := rfl

@[simp] theorem deviceAppend_config (b : Byte) (t : Transport) : (deviceAppend b t).config = t.config := rfl

@[simp] theorem openWith_tx (c : TransportConfig) (t : Transport) : (openWith c t).tx = t.tx := by
  unfold openWith; split <;> rfl

@[simp] theorem openWith_rx (c : TransportConfig) (t : Transport) : (openWith c t).rx = t.rx := by
  unfold openWith; split <;> rfl

end Sys2Proof.Machine
end

