-- ==== Sys2Proof/Laws/Ops.lean ====
section
/-! SUPPORT. One lemma per shared operation that says everything it can do; proofs cite these and do not unfold the
operation. -/

namespace Sys2Proof.Machine

/-- A guarded field read goes on only with the field's value. -/
theorem withField_next {α : Type} {f : EngineField} {v : Option α} {k : α → Result} {t : State}
    (h : withField f v k = .next t) : ∃ a, v = some a ∧ k a = .next t := by
  cases v with
  | none => simp [withField] at h
  | some a => exact ⟨a, rfl, h⟩

@[simp] theorem withField_some {α : Type} (f : EngineField) (a : α) (k : α → Result) :
    withField f (some a) k = k a := rfl

theorem whenIdle_idle {s : State} {k : State → Result} (h : s.eng.phase = .idle) : whenIdle s k = k s := by
  simp [whenIdle, h]

theorem whenIdle_held {s : State} {k : State → Result} (h : s.eng.phase ≠ .idle) : whenIdle s k = .next s := by
  cases hp : s.eng.phase <;> simp_all [whenIdle]

/-- A pure operation either ends in its acceptance step or is held. -/
theorem completePure_cases (op : Op) (o : RequestOutcome) (s : State) :
    (s.eng.phase = .idle ∧ completePure op o s = .next (finish o (latch op s))) ∨
    (s.eng.phase ≠ .idle ∧ completePure op o s = .next s) := by
  by_cases h : s.eng.phase = .idle
  · exact .inl ⟨h, whenIdle_idle h⟩
  · exact .inr ⟨h, whenIdle_held h⟩

theorem ready_iff {size n : Nat} {s : State} : s.ready size n = true ↔
    s.eng.phase = .idle ∧ s.transport.config.isSome = true ∧ overBound s.bounds.maxCmdBytes size = false ∧
      overBound s.bounds.maxRespWords n = false := by
  simp [State.ready, and_assoc]

/-- Everything a send's acceptance step can do: refuse, hold, end with RangeError, or begin. -/
theorem acceptSend_cases (op : Op) (size : Nat) (frame : Option (List Byte)) (n : Nat) (s : State) :
    ((overBound s.bounds.maxCmdBytes size = true ∨ overBound s.bounds.maxRespWords n = true) ∧
      acceptSend op size frame n s = .refused .tooLong) ∨
    (s.transport.config = none ∧ acceptSend op size frame n s = .refused .transportNotOpen) ∨
    (s.eng.phase ≠ .idle ∧ acceptSend op size frame n s = .next s) ∨
    (s.eng.phase = .idle ∧ frame = none ∧
      acceptSend op size frame n s = .next (finish .rangeError (latch op s))) ∨
    (s.eng.phase = .idle ∧ ∃ bytes, frame = some bytes ∧
      acceptSend op size frame n s = .next (beginSend op bytes n s)) := by
  unfold acceptSend
  split
  case isTrue h => exact .inl ⟨by simpa using h, rfl⟩
  case isFalse h =>
    cases hc : s.transport.config with
    | none => exact .inr (.inl ⟨rfl, rfl⟩)
    | some c =>
      by_cases hp : s.eng.phase = .idle
      · cases frame with
        | none => exact .inr (.inr (.inr (.inl ⟨hp, rfl, by simp [whenIdle_idle hp, raise]⟩)))
        | some bytes => exact .inr (.inr (.inr (.inr ⟨hp, bytes, rfl, by simp [whenIdle_idle hp]⟩)))
      · exact .inr (.inr (.inl ⟨hp, by simp [whenIdle_held hp]⟩))

/-- A ready send is accepted: RangeError without a frame, else it begins. -/
theorem acceptSend_ready {op : Op} {size n : Nat} {frame : Option (List Byte)} {s : State}
    (h : s.ready size n = true) :
    acceptSend op size frame n s =
      match frame with
      | none => .next (finish .rangeError (latch op s))
      | some bytes => .next (beginSend op bytes n s) := by
  obtain ⟨hp, hc, h1, h2⟩ := ready_iff.1 h
  obtain ⟨c, hc⟩ := Option.isSome_iff_exists.1 hc
  cases frame <;> simp [acceptSend, h1, h2, hc, whenIdle_idle hp, raise]

/-- Everything the transmit step can do when it answers a next state (R143 to R145). -/
theorem transmit_next {c : WriteChoice} {s t : State} (h : transmit c s = .next t) :
    ∃ frame k b, s.eng.txbuf = some frame ∧ s.eng.txidx = some k ∧ frame[k]? = some b ∧
      ((c = .ok ∧ t = advance frame.length k { s with transport := txWrite b c s.transport }) ∨
       ((∃ d, c = .timeout d) ∧
          t = finish .communicationError { s with transport := txWrite b c s.transport }) ∨
       (∃ e d, c = .fail e d ∧
          t = finish (.transportWriteFailure e) { s with transport := txWrite b c s.transport })) := by
  obtain ⟨frame, hf, h⟩ := withField_next h
  obtain ⟨k, hk, h⟩ := withField_next h
  cases hb : frame[k]? with
  | none => simp [hb] at h
  | some b =>
    refine ⟨frame, k, b, hf, hk, hb, ?_⟩
    cases c <;> simp [hb, writeAnswer, raise] at h <;> simp [h]

/-- Everything the sentinel step can do when it answers a next state (R171 to R174). -/
theorem readSentinel_next {s t : State} (h : readSentinel s = .next t) :
    (s.transport.rx = [] ∧ t = finish .communicationError { s with transport := rxConsume s.transport }) ∨
    ∃ b rest, s.transport.rx = b :: rest ∧
      ((b ≠ sentinel ∧ t = finish (.protocolError b) { s with transport := rxConsume s.transport }) ∨
       (b = sentinel ∧ s.eng.nresp = some 0 ∧
          t = finish (.ok (.words [])) { s with transport := rxConsume s.transport }) ∨
       (b = sentinel ∧ ∃ n, s.eng.nresp = some n ∧ 0 < n ∧
          t = { s with
            transport := rxConsume s.transport
            eng := { s.eng with rxbuf := some [], phase := .readingResponse } })) := by
  cases hr : s.transport.rx with
  | nil =>
    simp only [readSentinel, rxAnswer, hr, raise] at h
    exact .inl ⟨rfl, (Host.Outcome.next.inj h).symm⟩
  | cons b rest =>
    simp only [readSentinel, rxAnswer, hr, raise] at h
    refine .inr ⟨b, rest, rfl, ?_⟩
    split at h
    case isTrue hb => exact .inl ⟨hb, (Host.Outcome.next.inj h).symm⟩
    case isFalse hb =>
      obtain ⟨n, hn, h⟩ := withField_next h
      have hb : b = sentinel := by simpa using hb
      split at h
      case isTrue h0 => exact .inr (.inl ⟨hb, h0 ▸ hn, (Host.Outcome.next.inj h).symm⟩)
      case isFalse h0 => exact .inr (.inr ⟨hb, n, hn, by omega, (Host.Outcome.next.inj h).symm⟩)

/-- Everything the response step can do when it answers a next state (R175, R176). -/
theorem readResponse_next {s t : State} (h : readResponse s = .next t) :
    (s.transport.rx = [] ∧ t = finish .communicationError { s with transport := rxConsume s.transport }) ∨
    ∃ b rest got n, s.transport.rx = b :: rest ∧ s.eng.rxbuf = some got ∧ s.eng.nresp = some n ∧
      ((got.length + 1 = 2 * n ∧ t = finish (.ok (.words (responseWords (got ++ [b]))))
          { s with transport := rxConsume s.transport }) ∨
       (got.length + 1 ≠ 2 * n ∧ t = { s with
          transport := rxConsume s.transport
          eng := { s.eng with rxbuf := some (got ++ [b]) } })) := by
  cases hr : s.transport.rx with
  | nil =>
    simp only [readResponse, rxAnswer, hr, raise] at h
    exact .inl ⟨rfl, (Host.Outcome.next.inj h).symm⟩
  | cons b rest =>
    simp only [readResponse, rxAnswer, hr] at h
    obtain ⟨got, hg, h⟩ := withField_next h
    obtain ⟨n, hn, h⟩ := withField_next h
    refine .inr ⟨b, rest, got, n, rfl, hg, hn, ?_⟩
    split at h
    case isTrue hl => exact .inl ⟨by simpa using hl, (Host.Outcome.next.inj h).symm⟩
    case isFalse hl => exact .inr ⟨by simpa using hl, (Host.Outcome.next.inj h).symm⟩

/-- A send with a signed count goes on only with a count that is a natural number. -/
theorem acceptSendSigned_next {op : Op} {size : Nat} {frame : Option (List Byte)} {n : Int} {s t : State}
    (h : acceptSendSigned op size frame n s = .next t) :
    ∃ k : Nat, n = (k : Int) ∧ acceptSend op size frame k s = .next t := by
  cases n with
  | ofNat k => exact ⟨k, rfl, h⟩
  | negSucc k => simp [acceptSendSigned] at h

/-- What an accepted or held send leaves. -/
theorem acceptSend_next {op : Op} {size n : Nat} {frame : Option (List Byte)} {s t : State}
    (h : acceptSend op size frame n s = .next t) :
    (s.eng.phase ≠ .idle ∧ t = s) ∨
    (s.eng.phase = .idle ∧ t = finish .rangeError (latch op s)) ∨
    (s.eng.phase = .idle ∧ ∃ bytes, t = beginSend op bytes n s) := by
  rcases acceptSend_cases op size frame n s with ⟨-, e⟩ | ⟨-, e⟩ | ⟨hp, e⟩ | ⟨hp, -, e⟩ | ⟨hp, bytes, -, e⟩ <;>
    rw [e] at h <;> simp at h
  · exact .inl ⟨hp, h.symm⟩
  · exact .inr (.inl ⟨hp, h.symm⟩)
  · exact .inr (.inr ⟨hp, bytes, h.symm⟩)

/-- A send on a closed transport is refused, whatever its operands and the phase (R74, R273). -/
theorem acceptSend_closed {op : Op} {size n : Nat} {frame : Option (List Byte)} {s : State}
    (h : s.transport.config = none) : ∃ x, acceptSend op size frame n s = .refused x := by
  unfold acceptSend
  split
  · exact ⟨_, rfl⟩
  · exact ⟨.transportNotOpen, by simp [h]⟩

theorem acceptSendSigned_closed {op : Op} {size : Nat} {frame : Option (List Byte)} {n : Int} {s : State}
    (h : s.transport.config = none) : ∃ x, acceptSendSigned op size frame n s = .refused x := by
  cases n with
  | ofNat n => exact acceptSend_closed h
  | negSucc n => exact ⟨_, rfl⟩

/-- Outside `Idle` the contrast cache is not touched (R75). -/
theorem cacheOnAcceptance_held {args : List Int} {s : State} (h : s.eng.phase ≠ .idle) :
    cacheOnAcceptance args s = s := by
  cases hp : s.eng.phase <;> simp_all [cacheOnAcceptance]

@[simp] theorem cacheOnAcceptance_transport (args : List Int) (s : State) :
    (cacheOnAcceptance args s).transport = s.transport := by
  cases hp : s.eng.phase <;> simp [cacheOnAcceptance, cacheContrast, hp]

theorem cacheOnAcceptance_idle {args : List Int} {s : State} (h : s.eng.phase = .idle) :
    cacheOnAcceptance args s = cacheContrast args s := by
  simp [cacheOnAcceptance, h]

/-- What becomes of an instruction that is not refused: it is held, it ends in `Done` in its acceptance step, or it is
a send that begins. -/
inductive Accepts (s t : State) : Prop where
  | held (busy : s.eng.phase ≠ .idle) (same : t = s)
  | pure (op : Op) (o : RequestOutcome) (idle : s.eng.phase = .idle) (allowed : immediateOutcome op o = true)
      (eq : t = finish o (latch op s))
  | send (op : Op) (frame : List Byte) (n : Nat) (idle : s.eng.phase = .idle) (isSend : op.isSend = true)
      (eq : t = beginSend op frame n s)

theorem completePure_accepts {op : Op} {o : RequestOutcome} {s t : State} (ho : immediateOutcome op o = true)
    (h : completePure op o s = .next t) : Accepts s t := by
  rcases completePure_cases op o s with ⟨hp, e⟩ | ⟨hp, e⟩ <;> rw [e] at h <;> simp at h
  · exact .pure op o hp ho h.symm
  · exact .held hp h.symm

theorem immediateOutcome_rangeError_of_send {op : Op} (h : op.isSend = true) :
    immediateOutcome op .rangeError = true := by
  cases op <;> first | rfl | simp [Op.isSend] at h

theorem acceptSend_accepts {op : Op} {size n : Nat} {frame : Option (List Byte)} {s t : State}
    (hs : op.isSend = true) (h : acceptSend op size frame n s = .next t) : Accepts s t := by
  rcases acceptSend_next h with ⟨hp, e⟩ | ⟨hp, e⟩ | ⟨hp, bytes, e⟩
  · exact .held hp e
  · exact .pure op .rangeError hp (immediateOutcome_rangeError_of_send hs) e
  · exact .send op bytes n hp hs e

theorem catalogSend_accepts {opcode : Word} {args : List Int} {s t : State}
    (h : catalogSend opcode args s = .next t) : Accepts s t :=
  acceptSend_accepts rfl h

/-- Everything any instruction can do when it answers a next state: acceptance from `s`, or, for CAT_CONTRAST in
`Idle`, from `s` with the contrast cache set. -/
theorem exec_accepts {i : Instr} {s t : State} (h : exec i s = .next t) :
    Accepts s t ∨ ∃ args, i = .catContrast args ∧ s.eng.phase = .idle ∧ Accepts (cacheContrast args s) t := by
  cases i with
  | encodeWord v =>
    simp only [exec, execEncodeWord] at h
    refine .inl (completePure_accepts ?_ h)
    cases encodeWord v <;> rfl
  | decodeWord a b =>
    simp only [exec, execDecodeWord] at h
    refine .inl (completePure_accepts ?_ h)
    cases decodeWord a b <;> rfl
  | packColor a b c =>
    simp only [exec, execPackColor] at h
    split at h
    · exact .inl (completePure_accepts rfl h)
    · simp at h
  | sendCommand vs n =>
    obtain ⟨k, -, h⟩ := acceptSendSigned_next h
    exact .inl (acceptSend_accepts rfl h)
  | sendRawCommand vs n =>
    obtain ⟨k, -, h⟩ := acceptSendSigned_next h
    exact .inl (acceptSend_accepts rfl h)
  | reserved101 => simp [exec, execReserved101] at h
  | reserved110 => simp [exec, execReserved110] at h
  | reserved111 => simp [exec, execReserved111] at h
  | catContrast args =>
    simp only [exec, execCatContrast] at h
    by_cases hp : s.eng.phase = .idle
    · rw [cacheOnAcceptance_idle hp] at h
      exact .inr ⟨args, rfl, hp, catalogSend_accepts h⟩
    · rw [cacheOnAcceptance_held hp] at h
      exact .inl (catalogSend_accepts h)
  | _ => exact .inl (catalogSend_accepts h)

theorem catalogSend_closed {opcode : Word} {args : List Int} {s : State} (h : s.transport.config = none) :
    ∃ x, catalogSend opcode args s = .refused x :=
  acceptSend_closed h

/-- On a closed transport every send is refused, catalog operations included (R73, R200, R273). -/
theorem exec_send_closed {i : Instr} {s : State} (hi : i.isSend = true) (hc : s.transport.config = none) :
    ∃ x, exec i s = .refused x := by
  cases i with
  | encodeWord => exact nomatch hi
  | decodeWord => exact nomatch hi
  | packColor => exact nomatch hi
  | reserved101 => exact nomatch hi
  | reserved110 => exact nomatch hi
  | reserved111 => exact nomatch hi
  | sendCommand => exact acceptSendSigned_closed hc
  | sendRawCommand => exact acceptSendSigned_closed hc
  | catContrast args => exact catalogSend_closed ((cacheOnAcceptance_transport args s).symm ▸ hc)
  | _ => exact catalogSend_closed hc

/-- Everything presenting a request can do: nothing, put it on the port, or refuse a send on a closed transport. -/
theorem presentRequest_cases (r : Request) (s : State) :
    ((s.req ≠ none ∨ r.fits s.bounds.operandWidth = false) ∧ presentRequest r s = .next s) ∨
    (s.req = none ∧ ((decode r).isSend = true → s.transport.config ≠ none) ∧
      presentRequest r s = .next { s with req := some r }) ∨
    (s.req = none ∧ (decode r).isSend = true ∧ s.transport.config = none ∧ ∃ x, presentRequest r s = .refused x) := by
  cases hq : s.req with
  | some q => exact .inl ⟨.inl nofun, by simp [presentRequest, hq]⟩
  | none =>
    cases hf : r.fits s.bounds.operandWidth with
    | false => exact .inl ⟨.inr rfl, by simp [presentRequest, hq, hf]⟩
    | true =>
      refine .inr ?_
      by_cases hb : (decode r).isSend = true ∧ s.transport.config = none
      · obtain ⟨x, hx⟩ := exec_send_closed hb.1 hb.2
        exact .inr ⟨rfl, hb.1, hb.2, x, by simp [presentRequest, hq, hf, hb, hx]⟩
      · refine .inl ⟨rfl, fun h e => hb ⟨h, e⟩, ?_⟩
        have : ¬ (((decode r).isSend && s.transport.config.isNone) = true) := by simpa using hb
        simp [presentRequest, hq, hf, this]

/-- What presenting a request leaves. -/
theorem presentRequest_next {r : Request} {s t : State} (h : presentRequest r s = .next t) :
    t = s ∨ (s.req = none ∧ ((decode r).isSend = true → s.transport.config ≠ none) ∧ t = { s with req := some r }) := by
  rcases presentRequest_cases r s with ⟨-, e⟩ | ⟨hq, hc, e⟩ | ⟨-, -, -, x, e⟩ <;> rw [e] at h <;> simp at h
  · exact .inl h.symm
  · exact .inr ⟨hq, hc, h.symm⟩

end Sys2Proof.Machine
end

