-- ==== Sys2Proof/Laws/PerInstr.lean ====
section
/-! SUPPORT. Per-instruction facts about the encoding. `Selector`: the request that presents an instruction carries the
operation selector R72 gives it, and a catalog operation is a SEND to the block (R200). -/

namespace Sys2Proof.Laws.Selector

/-- The selector R72 gives the instruction. -/
def expected : Instr → BitVec 3
  | .encodeWord _ => 0
  | .decodeWord _ _ => 1
  | .packColor _ _ _ => 2
  | .sendCommand _ _ => 3
  | .sendRawCommand _ _ => 4
  | .reserved101 => 5
  | .reserved110 => 6
  | .reserved111 => 7
  | .catRectFilled _ => 3
  | .catRectOutline _ => 3
  | .catEllipseFfb1 _ => 3
  | .catEllipseFfb2 _ => 3
  | .catLine _ => 3
  | .catPoly0013 _ => 3
  | .catPoly0014 _ => 3
  | .catPoly0015 _ => 3
  | .catClearScreen => 3
  | .catSetPixel _ => 3
  | .catSetCursor _ => 3
  | .catSetFont _ => 3
  | .catTextSizeFfe3 _ => 3
  | .catTextSizeFfe4 _ => 3
  | .catTextColour _ => 3
  | .catBgColour _ => 3
  | .catContrast _ => 3
  | .catOrientation _ => 3
  | .catDisplaySizeQuery _ => 3
  | .catTouchMode _ => 3
  | .catTouchPoll _ => 3

/-- The request of `i` carries the selector of `i`. -/
def Statement (i : Instr) : Prop :=
  (encode i).selector = expected i

theorem encodeWord (value : Int) : Statement (.encodeWord value) := rfl

theorem decodeWord (high low : Int) : Statement (.decodeWord high low) := rfl

theorem packColor (red green blue : Int) : Statement (.packColor red green blue) := rfl

theorem sendCommand (words : List Int) (count : Int) : Statement (.sendCommand words count) := rfl

theorem sendRawCommand (bytes : List Int) (count : Int) : Statement (.sendRawCommand bytes count) := rfl

theorem reserved101 : Statement .reserved101 := rfl

theorem reserved110 : Statement .reserved110 := rfl

theorem reserved111 : Statement .reserved111 := rfl

theorem catRectFilled (args : List Int) : Statement (.catRectFilled args) := rfl

theorem catRectOutline (args : List Int) : Statement (.catRectOutline args) := rfl

theorem catEllipseFfb1 (args : List Int) : Statement (.catEllipseFfb1 args) := rfl

theorem catEllipseFfb2 (args : List Int) : Statement (.catEllipseFfb2 args) := rfl

theorem catLine (args : List Int) : Statement (.catLine args) := rfl

theorem catPoly0013 (args : List Int) : Statement (.catPoly0013 args) := rfl

theorem catPoly0014 (args : List Int) : Statement (.catPoly0014 args) := rfl

theorem catPoly0015 (args : List Int) : Statement (.catPoly0015 args) := rfl

theorem catClearScreen : Statement .catClearScreen := rfl

theorem catSetPixel (args : List Int) : Statement (.catSetPixel args) := rfl

theorem catSetCursor (args : List Int) : Statement (.catSetCursor args) := rfl

theorem catSetFont (args : List Int) : Statement (.catSetFont args) := rfl

theorem catTextSizeFfe3 (args : List Int) : Statement (.catTextSizeFfe3 args) := rfl

theorem catTextSizeFfe4 (args : List Int) : Statement (.catTextSizeFfe4 args) := rfl

theorem catTextColour (args : List Int) : Statement (.catTextColour args) := rfl

theorem catBgColour (args : List Int) : Statement (.catBgColour args) := rfl

theorem catContrast (args : List Int) : Statement (.catContrast args) := rfl

theorem catOrientation (args : List Int) : Statement (.catOrientation args) := rfl

theorem catDisplaySizeQuery (m : Int) : Statement (.catDisplaySizeQuery m) := rfl

theorem catTouchMode (args : List Int) : Statement (.catTouchMode args) := rfl

theorem catTouchPoll (args : List Int) : Statement (.catTouchPoll args) := rfl

end Sys2Proof.Laws.Selector
end

