-- ==== Sys2Proof/Laws/Run.lean ====
section
/-! SUPPORT. Runs of the machine: one step at a time, and one run after another. -/

namespace Sys2Proof.Machine

/-- `k` steps, with the machine's own types. -/
abbrev run (k : Nat) (s : State) : Result :=
  Host.Core.run Sys2Proof.core k s

theorem run_zero (s : State) : run 0 s = .next s := rfl

/-- A run goes on from the state of its first step. -/
theorem coreRun_of_next {M : Host.Core} {k : Nat} {s t : M.State} (h : M.step s = .next t) :
    M.run (k + 1) s = M.run k t := by
  simp only [Host.Core.run, h]

/-- A run whose first step faults ends there. -/
theorem coreRun_of_fault {M : Host.Core} {k : Nat} {s : M.State} {f : M.Fault} (h : M.step s = .fault f) :
    M.run (k + 1) s = .fault f := by
  simp only [Host.Core.run, h]

/-- A run whose first step is refused ends there, so its mark is kept for the whole run (R74). -/
theorem coreRun_of_refused {M : Host.Core} {k : Nat} {s : M.State} {r : M.Refusal} (h : M.step s = .refused r) :
    M.run (k + 1) s = .refused r := by
  simp only [Host.Core.run, h]

theorem run_of_step {k : Nat} {s t : State} (h : step s = .next t) : run (k + 1) s = run k t :=
  coreRun_of_next (M := Sys2Proof.core) h

/-- A run of `a + b` steps is a run of `b` steps after one of `a`. -/
theorem run_add {a b : Nat} {s t : State} (h : run a s = .next t) : run (a + b) s = run b t := by
  induction a generalizing s with
  | zero =>
    have : s = t := Host.Outcome.next.inj ((run_zero s).symm.trans h)
    rw [this, Nat.zero_add]
  | succ a ih =>
    rw [Nat.add_right_comm]
    cases hs : step s with
    | next u =>
      rw [run_of_step hs]
      rw [run_of_step hs] at h
      exact ih h
    | fault f => exact nomatch h.symm.trans (coreRun_of_fault (M := Sys2Proof.core) hs)
    | refused r => exact nomatch h.symm.trans (coreRun_of_refused (M := Sys2Proof.core) hs)

end Sys2Proof.Machine
end

