-- ==== Sys2Proof/Tests/Slice0.lean ====
section
/-! SUPPORT. Tests: ill-formed terms, the spec's encodings by hand, one step of each instruction against the vectors of
spec/95_test_vectors.md, and for each statement a state and operands that meet its hypotheses. -/

namespace Sys2Proof.Tests

open Sys2Proof Sys2Proof.Machine Sys2Proof.Machine.Claims

/-! ## Small states -/

/-- `Idle`, transport open, these bytes waiting, these moves scripted. -/
def idleState (rx : List Byte) (script : List Move) : State :=
  { eng := Engine.reset
    transport := { config := some ⟨⟨1⟩, 9600, 1, 1⟩, tx := [], rx := rx }
    req := none
    bounds := Bounds.unbounded
    contrast := none
    script := script
    clock := 0 }

/-- A send under way in some phase. -/
def sendState (phase : Phase) (frame : List Byte) (k n : Nat) (got : Option (List Byte)) (rx : List Byte)
    (script : List Move) : State :=
  { idleState rx script with eng := ⟨phase, some .sendCommand, some frame, some k, some n, got, none⟩ }

/-- An outcome waiting in `Done`. -/
def doneState (o : RequestOutcome) (script : List Move) : State :=
  { idleState [] script with eng := ⟨.done, some .encodeWord, none, none, none, none, some o⟩ }

/-- The Engine record a result leaves, if it leaves a state. -/
def engOf : Result → Option Engine
  | .next t => some t.eng
  | _ => none

/-- The outcome a result leaves, if there is one. -/
def outcomeOf (r : Result) : Option RequestOutcome :=
  (engOf r).bind fun e => e.outcome

/-- The frame a result leaves, if there is one. -/
def frameOf (r : Result) : Option (List Byte) :=
  (engOf r).bind fun e => e.txbuf

/-- The two streams a result leaves. -/
def streamsOf : Result → Option (List Byte × List Byte)
  | .next t => some (t.transport.tx, t.transport.rx)
  | _ => none

/-- The name a result is refused under. -/
def refusalOf : Result → Option Refusal
  | .refused r => some r
  | _ => none

/-- The fault a result is. -/
def faultOf : Result → Option Fault
  | .fault f => some f
  | _ => none

/-! ## Ill-formed terms (R74) -/

theorem test_negative_red_ill_formed : (Instr.packColor (-1) 0 0).wellFormed = false := by decide
theorem test_negative_green_ill_formed : (Instr.packColor 0 (-1) 0).wellFormed = false := by decide
theorem test_negative_blue_ill_formed : (Instr.packColor 0 0 (-1)).wellFormed = false := by decide
theorem test_negative_send_count_ill_formed : (Instr.sendCommand [] (-1)).wellFormed = false := by decide
theorem test_negative_raw_count_ill_formed : (Instr.sendRawCommand [] (-1)).wellFormed = false := by decide
theorem test_reserved_ill_formed :
    Instr.reserved101.wellFormed = false ∧ Instr.reserved110.wellFormed = false ∧
      Instr.reserved111.wellFormed = false := by decide
theorem test_out_of_range_word_well_formed : (Instr.sendCommand [70000, -1] 0).wellFormed = true := by decide

/-! ## Encodings written out from R72 and R204 to R219 -/

theorem test_decode_encode_word : decode (.port 0b000 { value := 300 }) = .encodeWord 300 := by decide
theorem test_decode_decode_word : decode (.port 0b001 { high := 1, low := 44 }) = .decodeWord 1 44 := by decide
theorem test_decode_pack_color :
    decode (.port 0b010 { red := 1, green := 2, blue := 3 }) = .packColor 1 2 3 := by decide
theorem test_decode_send_command :
    decode (.port 0b011 { words := [0xFFCD], expected := 0 }) = .sendCommand [0xFFCD] 0 := by decide
theorem test_decode_send_raw_command :
    decode (.port 0b100 { bytes := [0x41], expected := 2 }) = .sendRawCommand [0x41] 2 := by decide
theorem test_decode_reserved :
    decode (.port 0b101 {}) = .reserved101 ∧ decode (.port 0b110 {}) = .reserved110 ∧
      decode (.port 0b111 {}) = .reserved111 := by decide
theorem test_decode_rect : decodeTableWord 16 0b1111111111000100 = some (.catRectFilled []) ∧
    decodeTableWord 16 0b1111111111000101 = some (.catRectOutline []) := by decide
theorem test_decode_ellipse : decodeTableWord 16 0b1111111110110001 = some (.catEllipseFfb1 []) ∧
    decodeTableWord 16 0b1111111110110010 = some (.catEllipseFfb2 []) := by decide
theorem test_decode_line : decodeTableWord 16 0b1111111111001000 = some (.catLine []) := by decide
theorem test_decode_poly : decodeTableWord 16 0b0000000000010011 = some (.catPoly0013 []) ∧
    decodeTableWord 16 0b0000000000010100 = some (.catPoly0014 []) ∧
    decodeTableWord 16 0b0000000000010101 = some (.catPoly0015 []) := by decide
theorem test_decode_clear_screen : decodeTableWord 16 0b1111111111001101 = some .catClearScreen := by decide
theorem test_decode_set_pixel : decodeTableWord 16 0b1111111111000001 = some (.catSetPixel []) := by decide
theorem test_decode_set_cursor : decodeTableWord 16 0b1111111111101001 = some (.catSetCursor []) := by decide
theorem test_decode_set_font : decodeTableWord 16 0b1111111111100101 = some (.catSetFont []) := by decide
theorem test_decode_text_size : decodeTableWord 16 0b1111111111100011 = some (.catTextSizeFfe3 []) ∧
    decodeTableWord 16 0b1111111111100100 = some (.catTextSizeFfe4 []) := by decide
theorem test_decode_text_colour : decodeTableWord 16 0b1111111111100111 = some (.catTextColour []) := by decide
theorem test_decode_bg_colour : decodeTableWord 16 0b1111111110100100 = some (.catBgColour []) := by decide
theorem test_decode_contrast : decodeTableWord 16 0b1111111110011100 = some (.catContrast []) := by decide
theorem test_decode_orientation : decodeTableWord 16 0b1111111110011110 = some (.catOrientation []) := by decide
theorem test_decode_display_size : decodeTableWord 16 0b1111111110100110 = some (.catDisplaySizeQuery 0) := by
  decide
theorem test_decode_touch : decodeTableWord 16 0b1111111100111001 = some (.catTouchMode []) ∧
    decodeTableWord 16 0b1111111100110111 = some (.catTouchPoll []) := by decide
theorem test_selector_has_three_bits : decodeTableWord 8 8 = none := by decide
theorem test_arguments_are_kept : decode (.catalog 0xFFC8 [10, 20]) = .catLine [10, 20] := by decide
theorem test_clear_screen_with_argument_is_plain :
    decode (.catalog 0xFFCD [5]) = .sendCommand [0xFFCD, 5] 0 := by decide

/-! ## The pure operations: vectors 2.1 to 2.3 and S5 to S7, S12 -/

theorem test_encode_300 :
    outcomeOf (exec (.encodeWord 300) (idleState [] [])) = some (.ok (.pair 0x01 0x2C)) := by decide
theorem test_encode_edges :
    outcomeOf (exec (.encodeWord 65535) (idleState [] [])) = some (.ok (.pair 0xFF 0xFF)) ∧
    outcomeOf (exec (.encodeWord 0) (idleState [] [])) = some (.ok (.pair 0 0)) ∧
    outcomeOf (exec (.encodeWord 65536) (idleState [] [])) = some .rangeError ∧
    outcomeOf (exec (.encodeWord (-1)) (idleState [] [])) = some .rangeError := by decide
theorem test_decode_1_44 :
    outcomeOf (exec (.decodeWord 1 44) (idleState [] [])) = some (.ok (.word 300)) := by decide
theorem test_decode_edges :
    outcomeOf (exec (.decodeWord 255 255) (idleState [] [])) = some (.ok (.word 65535)) ∧
    outcomeOf (exec (.decodeWord 256 0) (idleState [] [])) = some .rangeError ∧
    outcomeOf (exec (.decodeWord 0 256) (idleState [] [])) = some .rangeError ∧
    outcomeOf (exec (.decodeWord (-1) 0) (idleState [] [])) = some .rangeError ∧
    outcomeOf (exec (.decodeWord 0 (-1)) (idleState [] [])) = some .rangeError := by decide
theorem test_pack_fields :
    outcomeOf (exec (.packColor 10 20 30) (idleState [] [])) = some (.ok (.word 0x529E)) ∧
    outcomeOf (exec (.packColor 16 32 16) (idleState [] [])) = some (.ok (.word 0x8410)) ∧
    outcomeOf (exec (.packColor 30 62 30) (idleState [] [])) = some (.ok (.word 0xF7DE)) := by decide
theorem test_pack_saturates :
    outcomeOf (exec (.packColor 32 64 32) (idleState [] [])) = some (.ok (.word 0xFFFF)) ∧
    outcomeOf (exec (.packColor 0 64 0) (idleState [] [])) = some (.ok (.word 0x07E0)) ∧
    outcomeOf (exec (.packColor 1000000 0 0) (idleState [] [])) = some (.ok (.word 0xF800)) ∧
    refusalOf (exec (.packColor (-1) 0 0) (idleState [] [])) = some .negativeChannel := by decide

/-! ## The sends: vectors 2.4, and the catalog's wire bytes (44_catalog.md) -/

theorem test_send_frames_high_byte_first :
    engOf (exec (.sendCommand [0xFFA6, 0] 1) (idleState [] [])) =
      some ⟨.tx, some .sendCommand, some [0xFF, 0xA6, 0x00, 0x00], some 0, some 1, none, none⟩ := by decide
theorem test_send_range_error_is_before_any_byte :
    outcomeOf (exec (.sendCommand [0xFFCD, 70000] 0) (idleState [0x06] [])) = some .rangeError ∧
    streamsOf (exec (.sendCommand [0xFFCD, 70000] 0) (idleState [0x06] [])) = some ([], [0x06]) ∧
    frameOf (exec (.sendCommand [0xFFCD, 70000] 0) (idleState [0x06] [])) = none := by decide
theorem test_raw_bytes_unchanged :
    frameOf (exec (.sendRawCommand [0x41, 0x42, 0x00] 0) (idleState [] [])) = some [0x41, 0x42, 0x00] := by decide
theorem test_raw_range_error :
    outcomeOf (exec (.sendRawCommand [0x41, 256] 0) (idleState [] [])) = some .rangeError ∧
    (engOf (exec (.sendRawCommand [] 0) (idleState [] []))).map (·.phase) = some .awaitingSentinel := by decide
theorem test_send_refusals :
    refusalOf (exec (.sendCommand [0xFFCD] (-1)) (idleState [] [])) = some .negativeCount ∧
    refusalOf (exec (.sendCommand [0xFFCD] 0) State.powerOn) = some .transportNotOpen ∧
    refusalOf (exec (.sendCommand [0xFFCD] 0) { idleState [] [] with bounds := ⟨none, some 1, none⟩ }) =
      some .tooLong := by decide
theorem test_reserved_refused :
    refusalOf (exec .reserved101 (idleState [] [])) = some .reservedOp ∧
    refusalOf (exec .reserved110 (idleState [] [])) = some .reservedOp ∧
    refusalOf (exec .reserved111 (idleState [] [])) = some .reservedOp := by decide
theorem test_wire_rect : frameOf (exec (.catRectFilled []) (idleState [] [])) = some [0xFF, 0xC4] ∧
    frameOf (exec (.catRectOutline [1]) (idleState [] [])) = some [0xFF, 0xC5, 0, 1] := by decide
theorem test_wire_ellipse : frameOf (exec (.catEllipseFfb1 []) (idleState [] [])) = some [0xFF, 0xB1] ∧
    frameOf (exec (.catEllipseFfb2 []) (idleState [] [])) = some [0xFF, 0xB2] := by decide
/-- Program 2 of 95_test_vectors.md. -/
theorem test_wire_line : frameOf (exec (.catLine [10, 20, 100, 200, 0xF800]) (idleState [] [])) =
    some [0xFF, 0xC8, 0x00, 0x0A, 0x00, 0x14, 0x00, 0x64, 0x00, 0xC8, 0xF8, 0x00] := by decide
theorem test_wire_poly : frameOf (exec (.catPoly0013 [0xFFFF]) (idleState [] [])) = some [0x00, 0x13, 0xFF, 0xFF] ∧
    frameOf (exec (.catPoly0014 []) (idleState [] [])) = some [0x00, 0x14] ∧
    frameOf (exec (.catPoly0015 []) (idleState [] [])) = some [0x00, 0x15] := by decide
theorem test_wire_clear_screen :
    engOf (exec .catClearScreen (idleState [] [])) =
      some ⟨.tx, some .sendCommand, some [0xFF, 0xCD], some 0, some 0, none, none⟩ := by decide
theorem test_wire_pixel : frameOf (exec (.catSetPixel []) (idleState [] [])) = some [0xFF, 0xC1] := by decide
theorem test_wire_text : frameOf (exec (.catSetCursor []) (idleState [] [])) = some [0xFF, 0xE9] ∧
    frameOf (exec (.catSetFont []) (idleState [] [])) = some [0xFF, 0xE5] ∧
    frameOf (exec (.catTextSizeFfe3 []) (idleState [] [])) = some [0xFF, 0xE3] ∧
    frameOf (exec (.catTextSizeFfe4 []) (idleState [] [])) = some [0xFF, 0xE4] := by decide
theorem test_wire_colour : frameOf (exec (.catTextColour [0x07E0]) (idleState [] [])) =
      some [0xFF, 0xE7, 0x07, 0xE0] ∧
    frameOf (exec (.catBgColour []) (idleState [] [])) = some [0xFF, 0xA4] := by decide
theorem test_wire_contrast : frameOf (exec (.catContrast [7]) (idleState [] [])) = some [0xFF, 0x9C, 0, 7] := by
  decide
theorem test_wire_orientation : frameOf (exec (.catOrientation []) (idleState [] [])) = some [0xFF, 0x9E] := by
  decide
theorem test_wire_display_size :
    engOf (exec (.catDisplaySizeQuery 0) (idleState [] [])) =
      some ⟨.tx, some .sendCommand, some [0xFF, 0xA6, 0x00, 0x00], some 0, some 1, none, none⟩ ∧
    outcomeOf (exec (.catDisplaySizeQuery 65536) (idleState [] [])) = some .rangeError := by decide
theorem test_wire_touch : frameOf (exec (.catTouchMode []) (idleState [] [])) = some [0xFF, 0x39] ∧
    frameOf (exec (.catTouchPoll []) (idleState [] [])) = some [0xFF, 0x37] := by decide
theorem test_catalog_argument_range_error :
    outcomeOf (exec (.catLine [1, 65536]) (idleState [] [])) = some .rangeError ∧
    outcomeOf (exec (.catTouchPoll [-1]) (idleState [] [])) = some .rangeError := by decide

/-! ## Single steps of vectors S9, F6, F7, A2 to A9, and the host's words -/

theorem test_last_byte_hands_over :
    engOf (step (sendState .tx [0xFF, 0xCD] 1 0 none [] [.engine .ok])) =
      some ⟨.awaitingSentinel, some .sendCommand, some [0xFF, 0xCD], some 2, some 0, none, none⟩ := by decide
theorem test_write_timeout_draw :
    streamsOf (step (sendState .tx [0xFF, 0xC1] 1 0 none [0x06] [.engine (.timeout true)])) =
      some ([0xC1], [0x06]) ∧
    streamsOf (step (sendState .tx [0xFF, 0xC1] 1 0 none [0x06] [.engine (.timeout false)])) =
      some ([], [0x06]) ∧
    outcomeOf (step (sendState .tx [0xFF, 0xC1] 1 0 none [0x06] [.engine (.timeout false)])) =
      some .communicationError := by decide
theorem test_write_failure_passes_value :
    outcomeOf (step (sendState .tx [0xFF, 0xC1] 0 0 none [] [.engine (.fail ⟨5⟩ false)])) =
      some (.transportWriteFailure ⟨5⟩) := by decide
theorem test_sentinel_vectors :
    outcomeOf (step (sendState .awaitingSentinel [] 0 0 none [] [.engine .ok])) = some .communicationError ∧
    outcomeOf (step (sendState .awaitingSentinel [] 0 0 none [0x07] [.engine .ok])) =
      some (.protocolError 0x07) ∧
    outcomeOf (step (sendState .awaitingSentinel [] 0 0 none [0x06, 0x01] [.engine .ok])) =
      some (.ok (.words [])) ∧
    streamsOf (step (sendState .awaitingSentinel [] 0 0 none [0x06, 0x01] [.engine .ok])) =
      some ([], [0x01]) := by decide
theorem test_response_vectors :
    outcomeOf (step (sendState .readingResponse [] 0 1 (some [0x01]) [0x2C] [.engine .ok])) =
      some (.ok (.words [300])) ∧
    outcomeOf (step (sendState .readingResponse [] 0 2 (some [0x00, 0x01, 0x00]) [] [.engine .ok])) =
      some .communicationError ∧
    outcomeOf (step (sendState .readingResponse [] 0 1 (some [0x06]) [0x06] [.engine .ok])) =
      some (.ok (.words [1542])) := by decide
theorem test_unset_field_faults :
    faultOf (step { sendState .tx [] 0 0 none [] [.engine .ok] with eng := { Engine.reset with phase := .tx } }) =
      some (.unset .txbuf) ∧
    faultOf (step (sendState .tx [0xFF] 1 0 none [] [.engine .ok])) = some .noByteToWrite := by decide
theorem test_fetch_word_runs_selector :
    outcomeOf (step (State.reset.withFetchWord 8 0)) = some (.ok (.pair 0 0)) ∧
    refusalOf (step (State.reset.withFetchWord 8 7)) = some .reservedOp := by decide
theorem test_fetch_word_runs_catalog :
    frameOf (step (State.reset.withFetchWord 16 0xFFA6)) = some [0xFF, 0xA6, 0x00, 0x00] := by decide
/-- D4: 18 bits present 65536 and -1. -/
theorem test_narrow_port_presents_only_what_fits :
    (Request.port 0 { value := 131072 }).fits (some ⟨18, by decide⟩) = false ∧
    (Request.port 0 { value := 65536 }).fits (some ⟨18, by decide⟩) = true ∧
    (Request.port 0 { value := -1 }).fits (some ⟨18, by decide⟩) = true := by decide
/-- R71, R200: a catalog request's arguments and count are a SEND's operands. -/
theorem test_narrow_port_checks_catalog_operands :
    (Request.catalog 0xFFA6 [131072]).fits (some ⟨18, by decide⟩) = false ∧
    (Request.catalog 0xFFA6 [131071]).fits (some ⟨18, by decide⟩) = true ∧
    (Request.catalog 0xFFCD []).fits (some ⟨18, by decide⟩) = true := by decide

/-- R273: a send presented before `open` is refused at once; a pure operation is presented. -/
theorem test_send_presented_before_open :
    refusalOf (step { State.powerOn with script := [.present (.catalog 0xFFCD [])] }) = some .transportNotOpen ∧
    refusalOf (step { State.powerOn with script := [.present (.port 0b000 { value := 300 })] }) = none := by decide

/-! ## Witnesses: a state and operands that meet each statement's hypotheses, at the edges of each clause -/

theorem witness_ResetTouchesTheEngineOnly : nextMove (doneState .rangeError [.reset]) = .reset := by decide
theorem witness_StepRunsThePresentedRequest :
    let s := { idleState [] [.engine .ok] with req := some (Request.catalog 0xFFCD []) }
    nextMove s = .engine .ok ∧ s.eng.phase = .idle ∧ s.req = some (.catalog 0xFFCD []) := by decide
theorem witness_MovesComeFromTheScriptThenFree :
    (idleState [] [.ack]).script = [.ack] ∧ (idleState [] []).script = [] := by decide
/-- For EncodeWordResult, DecodeWordResult and PackColorResult; the operand edges are in the vectors above. -/
theorem witness_pure_operations :
    (idleState [] []).eng.phase = .idle ∧ (0 : Int) ≤ 31 ∧ (0 : Int) ≤ 0 := by decide
theorem witness_CodecInverseLaws : (0 : Int) ≤ 65535 ∧ (65535 : Int) ≤ 65535 ∧ (0 : Int) ≤ 255 := by decide
theorem witness_CodecNeverWraps : encodeWord 65535 = some (255, 255) ∧ decodeWord 255 255 = some 65535 ∧
    (65536 : Int) ≥ 65536 ∧ (-1 : Int) < 0 ∧ (256 : Int) ≥ 256 := by decide
theorem witness_RefusedRequests :
    (-1 : Int) < 0 ∧ overBound (some 1) 2 = true ∧ overBound (some 2) 2 = false ∧
    State.powerOn.transport.config = none ∧
    overBound State.powerOn.bounds.maxCmdBytes 2 = false ∧
    overBound State.powerOn.bounds.maxRespWords 0 = false := by decide
theorem witness_NothingElseIsRefused :
    refusalOf (exec .reserved111 State.powerOn) = some .reservedOp ∧
    refusalOf (exec (.packColor 0 0 (-1)) State.powerOn) = some .negativeChannel ∧
    refusalOf (exec (.sendRawCommand [] (-1)) State.powerOn) = some .negativeCount ∧
    refusalOf (exec (.sendCommand [] 0) State.powerOn) = some .transportNotOpen ∧
    refusalOf (exec .catClearScreen { idleState [] [] with bounds := ⟨none, some 1, none⟩ }) = some .tooLong ∧
    refusalOf (exec (.sendCommand [] 3) { idleState [] [] with bounds := ⟨none, none, some 2⟩ }) =
      some .tooLong := by decide
theorem witness_SendCommandAccepted :
    (idleState [] []).ready (2 * [65535].length) 0 = true ∧ InRange 65536 [0, 65535] ∧
      ¬ InRange 65536 [0, 65536] := by
  refine ⟨by decide, ?_, ?_⟩ <;> simp [InRange]
theorem witness_SendRawCommandAccepted :
    (idleState [] []).ready [255].length 0 = true ∧ InRange 256 [0, 255] ∧ ¬ InRange 256 [0, 256] := by
  refine ⟨by decide, ?_, ?_⟩ <;> simp [InRange]
/-- For DrawingOperationsSend, TextOperationsSend, PanelOperationsSend and ContrastSendsAndCaches. -/
theorem witness_CatalogSends :
    InRange 65536 [0, 65535] ∧ (idleState [] []).ready (2 * ([0, 65535].length + 1)) (respCount 0xFFC8) = true ∧
      (idleState [] []).ready (2 * ([0, 65535].length + 1)) (respCount 0xFF9C) = true := by
  refine ⟨by simp [InRange], by decide, by decide⟩
theorem witness_CountedOperationsSend :
    (idleState [] []).ready 2 0 = true ∧ (idleState [] []).ready 4 1 = true := by decide
theorem witness_CatalogRequestIsOneSend : (0x1234 : Word) ≠ 0xFF9C ∧ (idleState [] []).eng.phase = .idle := by
  decide
theorem witness_AcceptanceTouchesNoTransport :
    ∃ t, exec (.catContrast [1]) (idleState [] []) = .next t := ⟨_, rfl⟩
/-- For TransmitOnOk, TransmitOnTimeout and TransmitOnFailure, at the last byte of the frame. -/
theorem witness_Transmit :
    let s := fun c => sendState .tx [0xFF, 0xCD] 1 0 none [] [.engine c]
    nextMove (s .ok) = .engine .ok ∧ nextMove (s (.timeout true)) = .engine (.timeout true) ∧
    nextMove (s (.fail ⟨5⟩ false)) = .engine (.fail ⟨5⟩ false) ∧
    (s .ok).eng.phase = .tx ∧ (s .ok).eng.txbuf = some [0xFF, 0xCD] ∧ (s .ok).eng.txidx = some 1 ∧
    ([0xFF, 0xCD] : List Byte)[1]? = some 0xCD := by decide
/-- For SentinelOnTimeout, SentinelOnWrongByte, SentinelWithNoResponse and SentinelWithResponse. -/
theorem witness_Sentinel :
    let s := fun n rx => sendState .awaitingSentinel [] 0 n none rx [.engine .ok]
    nextMove (s 0 []) = .engine .ok ∧ (s 0 []).eng.phase = .awaitingSentinel ∧ (s 0 []).transport.rx = [] ∧
    (s 0 [0xFF]).transport.rx = [0xFF] ∧ (0xFF : Byte) ≠ 0x06 ∧ (s 0 [0x06]).transport.rx = [0x06] ∧
    (s 0 [0x06]).eng.nresp = some 0 ∧ (s 1 [0x06]).eng.nresp = some 1 := by decide
/-- For ResponseOnTimeout and both clauses of ResponseOnByte. -/
theorem witness_Response :
    let s := fun got rx => sendState .readingResponse [] 0 1 (some got) rx [.engine .ok]
    nextMove (s [] []) = .engine .ok ∧ (s [] []).eng.phase = .readingResponse ∧ (s [] []).transport.rx = [] ∧
    (s [0x01] [0x2C]).transport.rx = [0x2C] ∧ (s [0x01] [0x2C]).eng.rxbuf = some [0x01] ∧
    (s [0x01] [0x2C]).eng.nresp = some 1 ∧ ([0x01] : List Byte).length + 1 = 2 * 1 ∧
    ([] : List Byte).length + 1 ≠ 2 * 1 := by decide
theorem witness_AcknowledgeReturnsToIdle :
    nextMove (doneState .rangeError [.ack]) = .ack ∧ (doneState .rangeError [.ack]).eng.phase = .done := by decide
theorem witness_DoneHoldsItsOutcome :
    (doneState .rangeError [.device 1]).eng.phase = .done ∧
    (∃ t, step (doneState .rangeError [.device 1]) = .next t) ∧
    nextMove (doneState .rangeError [.device 1]) ≠ .ack ∧
    nextMove (doneState .rangeError [.device 1]) ≠ .reset :=
  ⟨by decide, ⟨_, rfl⟩, by decide, by decide⟩
theorem witness_BusyRequestIsHeld :
    let s := { sendState .tx [0xFF] 0 0 none [] [.engine .ok] with req := some (Request.catalog 0xFFCD []) }
    s.eng.phase ≠ .idle ∧ s.req = some (.catalog 0xFFCD []) ∧ (∃ t, step s = .next t) ∧
      ∃ t, exec .catClearScreen s = .next t :=
  ⟨by decide, rfl, ⟨_, rfl⟩, ⟨_, rfl⟩⟩
theorem witness_OutputPorts :
    (doneState .rangeError []).eng.phase = .done ∧
    (doneState .rangeError []).eng.outcome = some .rangeError ∧ (idleState [] []).eng.phase ≠ .done := by decide
theorem witness_PresentingARequest :
    nextMove (idleState [] [.present (.catalog 0xFFCD [])]) = .present (.catalog 0xFFCD []) ∧
    (idleState [] [.present (.catalog 0xFFCD [])]).req = none ∧
    (Request.catalog 0xFFCD []).fits (idleState [] []).bounds.operandWidth = true ∧
    (idleState [] []).transport.config ≠ none ∧ sendOf (decode (.port 0b010 {})) = none ∧
    (Request.catalog 0xFFC8 [131072]).fits (some ⟨18, by decide⟩) = false ∧
    ({ idleState [] [] with req := some (.catalog 0xFFCD []) } : State).req = some (.catalog 0xFFCD []) := by
  decide
/-- One send for each clause: a negative count, a command over its bound, and a plain one. -/
theorem witness_SendPresentedBeforeOpenIsRefused :
    let s := fun r => { State.powerOn with script := [.present r], bounds := ⟨none, some 2, none⟩ }
    let neg := Request.port 0b100 { bytes := [], expected := -1 }
    let long := Request.catalog 0xFFA6 [0]
    let fine := Request.catalog 0xFFCD []
    nextMove (s fine) = .present fine ∧ (s fine).req = none ∧ (s fine).transport.config = none ∧
    neg.fits none = true ∧ long.fits none = true ∧ fine.fits none = true ∧
    sendOf (decode neg) = some (.bytes [] (-1)) ∧
    sendOf (decode long) = some (.words [0xFFA6, 0] 1) ∧ overBound (some 2) 4 = true ∧
    sendOf (decode fine) = some (.words [0xFFCD] 0) ∧ overBound (some 2) 2 = false ∧
    overBound (s fine).bounds.maxRespWords 0 = false := by decide
theorem witness_NoStepLetsASendWaitClosed :
    let s := { State.powerOn with script := [.openTransport ⟨⟨2⟩, 9600, 1, 1⟩], req := some (.port 0b010 {}) }
    NoSendWaitsClosed s ∧ ∃ t, step s = .next t :=
  ⟨fun _ _ hr hs => absurd (Option.some.inj hr ▸ hs) (by simp [decode, decodePort, sendOf]), _, rfl⟩
theorem witness_HostActsWithoutEffect :
    nextMove (idleState [] [.ack]) = .ack ∧ (idleState [] [.ack]).eng.phase ≠ .done ∧
    nextMove (idleState [] [.openTransport ⟨⟨2⟩, 9600, 1, 1⟩]) = .openTransport ⟨⟨2⟩, 9600, 1, 1⟩ ∧
    (idleState [] [.openTransport ⟨⟨2⟩, 9600, 1, 1⟩]).transport.config = some ⟨⟨1⟩, 9600, 1, 1⟩ := by decide
theorem witness_DeviceByteArrives : nextMove (idleState [] [.device 0x06]) = .device 0x06 := by decide
theorem witness_ParametersAreSetOnce :
    nextMove { State.powerOn with script := [.openTransport ⟨⟨2⟩, 9600, 1, 1⟩] } =
      .openTransport ⟨⟨2⟩, 9600, 1, 1⟩ ∧
    State.powerOn.transport.config = none ∧
    (idleState [] []).transport.config = some ⟨⟨1⟩, 9600, 1, 1⟩ ∧
    ∃ t, step (idleState [] [.openTransport ⟨⟨2⟩, 9600, 1, 1⟩]) = .next t :=
  ⟨by decide, by decide, by decide, ⟨_, rfl⟩⟩
/-- For StepKeepsTheEngineWellFormed and WellFormedStepNeverFaults. -/
theorem witness_StepKeepsTheEngineWellFormed :
    (sendState .readingResponse [0xFF, 0xA6] 2 1 (some [0x01]) [0x2C] [.engine .ok]).eng.wf = true ∧
    ∃ t, step (sendState .readingResponse [0xFF, 0xA6] 2 1 (some [0x01]) [0x2C] [.engine .ok]) = .next t :=
  ⟨by decide, ⟨_, rfl⟩⟩
/-- For PhaseTransitionsAreLegal and StreamAccessesByPhase. -/
theorem witness_PhaseTransitionsAreLegal :
    (∃ t, step (idleState [] [.engine .ok]) = .next t) ∧ nextMove (idleState [] [.engine .ok]) = .engine .ok :=
  ⟨⟨_, rfl⟩, rfl⟩
theorem witness_LatchedFieldsStay :
    Busy (sendState .tx [0xFF, 0xCD] 1 0 none [] [.engine .ok]) ∧
    ∃ t, step (sendState .tx [0xFF, 0xCD] 1 0 none [] [.engine .ok]) = .next t ∧ t.eng.phase ≠ .idle :=
  ⟨.inl rfl, ⟨_, rfl, by decide⟩⟩
theorem witness_OutcomesByOperation :
    let s := sendState .readingResponse [0xFF, 0xA6] 2 1 (some [0x01]) [0x2C] [.engine .ok]
    s.eng.wf = true ∧ (∃ t, step s = .next t ∧ t.eng.phase = .done) ∧
    (idleState [] [.engine .ok]).eng.wf = true ∧
    ∃ t, step { idleState [] [.engine .ok] with req := some (.port 0b010 { red := 40 }) } = .next t ∧
      t.eng.phase = .done :=
  ⟨by decide, ⟨_, rfl, by decide⟩, by decide, ⟨_, rfl, by decide⟩⟩
theorem witness_EveryRequestReachesDone :
    let s := sendState .tx [0xFF, 0xCD] 1 1 none [] (List.replicate 4 (.engine .ok))
    s.eng.wf = true ∧ s.eng.phase ≠ .idle ∧
    s.script = [WriteChoice.ok, .ok, .ok, .ok].map Move.engine ++ [] ∧ s.eng.remaining ≤ 4 ∧
    (idleState [] []).eng.wf = true ∧ ∃ t, exec (.encodeWord 1) (idleState [] []) = .next t :=
  ⟨by decide, by decide, by decide, by decide, by decide, ⟨_, rfl⟩⟩
theorem witness_SendCycleSucceeds :
    let s := { idleState [0x06, 0x01, 0x2C, 0xAA] (List.replicate 8 (.engine .ok)) with
      req := some (Request.port 0b011 { words := [0xFFA6, 0], expected := 1 }) }
    sendOf (decode (.port 0b011 { words := [0xFFA6, 0], expected := 1 })) = some (.words [0xFFA6, 0] 1) ∧
    (SendShape.words [0xFFA6, 0] 1).expected = ((1 : Nat) : Int) ∧
    (SendShape.words [0xFFA6, 0] 1).Frames [0xFF, 0xA6, 0, 0] ∧
    s.req = some (.port 0b011 { words := [0xFFA6, 0], expected := 1 }) ∧ s.ready 4 1 = true ∧
    s.script = List.replicate (2 + 4 + 2 * 1) (.engine .ok) ++ [] ∧
    s.transport.rx = 0x06 :: ([0x01, 0x2C] ++ [0xAA]) ∧ ([0x01, 0x2C] : List Byte).length = 2 * 1 :=
  ⟨by decide, rfl, ⟨by simp [InRange], by decide⟩, rfl, by decide, by decide, rfl, rfl⟩
theorem witness_SendCycleSucceeds_raw :
    sendOf (decode (.port 0b100 { bytes := [0x41, 0xFF] })) = some (.bytes [0x41, 0xFF] 0) ∧
    (SendShape.bytes [0x41, 0xFF] 0).Frames [0x41, 0xFF] ∧ (idleState [0x06] []).ready 2 0 = true :=
  ⟨by decide, ⟨by simp [InRange], by decide⟩, by decide⟩
theorem witness_SendCycleSucceeds_catalog :
    sendOf (decode (.catalog 0xFFCD [])) = some (.words [0xFFCD] 0) ∧
    sendOf (decode (.catalog 0xFFA6 [0])) = some (.words [0xFFA6, 0] 1) ∧
    (SendShape.words [0xFFCD] 0).Frames [0xFF, 0xCD] ∧ (idleState [0x06] []).ready 2 0 = true :=
  ⟨by decide, by decide, ⟨by simp [InRange], by decide⟩, by decide⟩
theorem witness_FailedWriteKeepsEarlierBytes :
    let s := sendState .tx [0xFF, 0xC1] 0 0 none [] [.engine .ok, .engine (.timeout true)]
    s.eng.phase = .tx ∧ s.eng.txbuf = some [0xFF, 0xC1] ∧ s.eng.txidx = some 0 ∧
    ([0xFF, 0xC1] : List Byte)[1]? = some 0xC1 ∧
    s.script = List.replicate 1 (.engine .ok) ++ .engine (.timeout true) :: [] := by decide
/-- For both clauses: a left over byte other than `0x06`, and a left over `0x06` with two bytes after it. -/
theorem witness_ResidueIsReadAsTheNextSentinel :
    let s := fun rx moves => ({ doneState (.ok (.pair 0 0)) (.ack :: moves) with
      req := some (Request.catalog 0xFFA6 [0])
      transport := { config := some ⟨⟨1⟩, 9600, 1, 1⟩, tx := [], rx := rx } } : State)
    (s [0x01] []).eng.phase = .done ∧ (s [0x01] []).req = some (.catalog 0xFFA6 [0]) ∧
    sendOf (decode (.catalog 0xFFA6 [0])) = some (.words [0xFFA6, 0] 1) ∧
    (SendShape.words [0xFFA6, 0] 1).expected = ((1 : Nat) : Int) ∧
    (SendShape.words [0xFFA6, 0] 1).Frames [0xFF, 0xA6, 0, 0] ∧
    (s [0x01] []).transport.config.isSome = true ∧ overBound (s [0x01] []).bounds.maxCmdBytes 4 = false ∧
    overBound (s [0x01] []).bounds.maxRespWords 1 = false ∧
    (s [0x01] []).transport.rx = [0x01] ∧ (0x01 : Byte) ≠ 0x06 ∧
    (s [0x01] (List.replicate (2 + 4) (.engine .ok))).script =
      .ack :: List.replicate (2 + 4) (.engine .ok) ++ [] ∧
    (s [0x06, 0x01, 0x2C] []).transport.rx = 0x06 :: ([0x01, 0x2C] ++ []) ∧
    ([0x01, 0x2C] : List Byte).length = 2 * 1 ∧
    (s [] (List.replicate (2 + 4 + 2 * 1) (.engine .ok))).script =
      .ack :: List.replicate (2 + 4 + 2 * 1) (.engine .ok) ++ [] :=
  ⟨rfl, rfl, by decide, rfl, ⟨by simp [InRange], by decide⟩, rfl, rfl, rfl, rfl, by decide, by decide, rfl, rfl,
    by decide⟩

end Sys2Proof.Tests
end

section
/-! The statements of 00_scope.md: whose move a step makes, and that no step changes the parameters of an open transport
or the bounds. -/

namespace Sys2Proof.Machine

/-! ## Whose move it is -/

theorem nextMove_of_empty {s : State} (h : s.script = []) : nextMove s = Config.freeMove s.clock := by
  simp [nextMove, h]

theorem takeMove_of_empty {s : State} (h : s.script = []) : takeMove s = { s with clock := s.clock + 1 } := by
  simp [takeMove, h]

/-- Settles O6: `step` makes `nextMove` on `takeMove`, and both look at the script first. -/
theorem movesComeFromTheScriptThenFree : Obligations.MovesComeFromTheScriptThenFree := by
  refine ⟨fun s m ms h => ?_, fun s h => ?_⟩
  · rw [step, nextMove_of_script h, takeMove_of_script h]
  · rw [step, nextMove_of_empty h, takeMove_of_empty h]

/-! ## The parameters: R8's bounds and R31's opening parameters -/

theorem openWith_of_closed {c : TransportConfig} {t : Transport} (h : t.config = none) :
    openWith c t = { t with config := some c } := by
  simp [openWith, h]

theorem openWith_of_open {c d : TransportConfig} {t : Transport} (h : t.config = some d) : openWith c t = t := by
  simp [openWith, h]

/-- From `s` to `t` neither the bounds nor the transport's opening parameters have changed. -/
structure KeepsParameters (s t : State) : Prop where
  bounds : t.bounds = s.bounds
  config : t.transport.config = s.transport.config

theorem KeepsParameters.refl (s : State) : KeepsParameters s s := ⟨rfl, rfl⟩

theorem finish_keepsParameters {o : RequestOutcome} {s u : State} (h : KeepsParameters s u) :
    KeepsParameters s (finish o u) := ⟨h.bounds, h.config⟩

theorem txWrite_keepsParameters (b : Byte) (c : WriteChoice) (s : State) :
    KeepsParameters s { s with transport := txWrite b c s.transport } := ⟨rfl, txWrite_config b c s.transport⟩

theorem rxConsume_keepsParameters (s : State) :
    KeepsParameters s { s with transport := rxConsume s.transport } := ⟨rfl, rfl⟩

theorem Accepts.keepsParameters {s t : State} (h : Accepts s t) : KeepsParameters s t := by
  cases h with
  | held _ same => exact same ▸ .refl s
  | pure op o _ _ eq => exact eq ▸ ⟨rfl, rfl⟩
  | send op frame n _ _ eq => exact eq ▸ ⟨rfl, rfl⟩

theorem exec_keepsParameters {i : Instr} {s t : State} (h : exec i s = .next t) : KeepsParameters s t := by
  rcases exec_accepts h with ha | ⟨args, -, -, ha⟩
  · exact ha.keepsParameters
  · exact ⟨ha.keepsParameters.bounds, ha.keepsParameters.config⟩

theorem acceptMove_keepsParameters {s t : State} (h : acceptMove s = .next t) : KeepsParameters s t := by
  unfold acceptMove at h
  split at h
  · exact Host.Outcome.next.inj h ▸ .refl s
  · exact exec_keepsParameters h

theorem transmit_keepsParameters {c : WriteChoice} {s t : State} (h : transmit c s = .next t) :
    KeepsParameters s t := by
  obtain ⟨frame, k, b, -, -, -, hc⟩ := transmit_next h
  have hw := txWrite_keepsParameters b c s
  rcases hc with ⟨-, rfl⟩ | ⟨-, rfl⟩ | ⟨e, d, -, rfl⟩
  · exact ⟨hw.bounds, hw.config⟩
  · exact finish_keepsParameters hw
  · exact finish_keepsParameters hw

theorem readSentinel_keepsParameters {s t : State} (h : readSentinel s = .next t) : KeepsParameters s t := by
  have hr := rxConsume_keepsParameters s
  rcases readSentinel_next h with ⟨-, rfl⟩ | ⟨b, rest, -, ⟨-, rfl⟩ | ⟨-, -, rfl⟩ | ⟨-, n, -, -, rfl⟩⟩
  · exact finish_keepsParameters hr
  · exact finish_keepsParameters hr
  · exact finish_keepsParameters hr
  · exact ⟨rfl, rfl⟩

theorem readResponse_keepsParameters {s t : State} (h : readResponse s = .next t) : KeepsParameters s t := by
  have hr := rxConsume_keepsParameters s
  rcases readResponse_next h with ⟨-, rfl⟩ | ⟨b, rest, got, n, -, -, -, ⟨-, rfl⟩ | ⟨-, rfl⟩⟩
  · exact finish_keepsParameters hr
  · exact finish_keepsParameters hr
  · exact ⟨rfl, rfl⟩

theorem engineMove_keepsParameters {c : WriteChoice} {s t : State} (h : engineMove c s = .next t) :
    KeepsParameters s t := by
  unfold engineMove at h
  split at h
  · exact acceptMove_keepsParameters h
  · exact transmit_keepsParameters h
  · exact readSentinel_keepsParameters h
  · exact readResponse_keepsParameters h
  · exact Host.Outcome.next.inj h ▸ .refl s

theorem presentRequest_keepsParameters {r : Request} {s t : State} (h : presentRequest r s = .next t) :
    KeepsParameters s t := by
  rcases presentRequest_next h with rfl | ⟨-, -, rfl⟩ <;> exact ⟨rfl, rfl⟩

/-- Opening is the only move that can change the parameters, and it changes the transport's only. -/
theorem applyMove_keepsParameters_or_opens {m : Move} {s t : State} (h : applyMove m s = .next t) :
    KeepsParameters s t ∨ ∃ c, m = .openTransport c ∧ t = openTransport c s := by
  cases m with
  | engine c => exact .inl (engineMove_keepsParameters h)
  | present r => exact .inl (presentRequest_keepsParameters h)
  | ack => exact .inl (Host.Outcome.next.inj h ▸ ⟨acknowledge_bounds s, by rw [acknowledge_transport]⟩)
  | openTransport c => exact .inr ⟨c, rfl, (Host.Outcome.next.inj h).symm⟩
  | reset => exact .inl (Host.Outcome.next.inj h ▸ ⟨rfl, rfl⟩)
  | device b => exact .inl (Host.Outcome.next.inj h ▸ ⟨rfl, rfl⟩)

/-- `open` on a transport that is not open sets its parameters (R31). -/
theorem step_opens {s : State} {c : TransportConfig} (hm : nextMove s = .openTransport c)
    (hc : s.transport.config = none) :
    step s = .next { takeMove s with transport := { s.transport with config := some c } } := by
  rw [step, hm, applyMove, openTransport, takeMove_transport, openWith_of_closed hc]

/-- No step changes the bounds (R8). -/
theorem step_bounds {s t : State} (h : step s = .next t) : t.bounds = s.bounds := by
  rcases applyMove_keepsParameters_or_opens h with hk | ⟨c, -, rfl⟩
  · rw [hk.bounds, takeMove_bounds]
  · rw [openTransport_bounds, takeMove_bounds]

/-- No step changes the parameters of an open transport, a second `open` included (R31). -/
theorem step_config_of_open {s t : State} {c : TransportConfig} (hc : s.transport.config = some c)
    (h : step s = .next t) : t.transport.config = some c := by
  rcases applyMove_keepsParameters_or_opens h with hk | ⟨d, -, rfl⟩
  · rw [hk.config, takeMove_transport, hc]
  · rw [openTransport_transport, takeMove_transport, openWith_of_open hc, hc]

/-- Settles O40: of all moves only `open` touches the parameters, and it keeps those of an open transport. -/
theorem parametersAreSetOnce : Obligations.ParametersAreSetOnce :=
  ⟨fun _ _ => step_opens, fun _ _ _ => step_config_of_open, fun _ _ => step_bounds⟩

end Sys2Proof.Machine
end

section
/-! What one step can do, said once: the Engine's move by its phase (10_state.md R21), and every other agent's. The
statements about every step are case splits on this. -/

namespace Sys2Proof.Machine

/-! ## The Engine's move -/

/-- Everything the Engine's move with the Transport's choice `c` can do when it answers a next state: it rests, it makes
an acceptance step, or it makes the one transport access of its phase. An acceptance may start from a state `u` that
differs from `s` in the contrast cache only (R222). -/
inductive EngineStep (c : WriteChoice) (s t : State) : Prop where
  | rests (waiting : (s.eng.phase = .idle ∧ s.req = none) ∨ s.eng.phase = .done) (eq : t = s)
  | completes (u : State) (op : Op) (o : RequestOutcome) (idle : s.eng.phase = .idle)
      (eng : u.eng = s.eng) (transport : u.transport = s.transport) (allowed : immediateOutcome op o = true)
      (eq : t = finish o (latch op u))
  | begins (u : State) (op : Op) (frame : List Byte) (n : Nat) (idle : s.eng.phase = .idle)
      (eng : u.eng = s.eng) (transport : u.transport = s.transport) (isSend : op.isSend = true)
      (eq : t = beginSend op frame n u)
  | writes (frame : List Byte) (k : Nat) (b : Byte) (tx : s.eng.phase = .tx) (txbuf : s.eng.txbuf = some frame)
      (txidx : s.eng.txidx = some k) (eq : t = advance frame.length k { s with transport := txWrite b c s.transport })
  | writeFails (b : Byte) (o : RequestOutcome) (tx : s.eng.phase = .tx)
      (failure : o = .communicationError ∨ ∃ e, o = .transportWriteFailure e)
      (eq : t = finish o { s with transport := txWrite b c s.transport })
  | readTimesOut (reading : s.eng.phase = .awaitingSentinel ∨ s.eng.phase = .readingResponse)
      (rx : s.transport.rx = [])
      (eq : t = finish .communicationError { s with transport := rxConsume s.transport })
  | sentinelEnds (b : Byte) (rest : List Byte) (o : RequestOutcome) (awaiting : s.eng.phase = .awaitingSentinel)
      (rx : s.transport.rx = b :: rest)
      (outcome : (b ≠ sentinel ∧ o = .protocolError b) ∨ (s.eng.nresp = some 0 ∧ o = .ok (.words [])))
      (eq : t = finish o { s with transport := rxConsume s.transport })
  | responseBegins (b : Byte) (rest : List Byte) (n : Nat) (awaiting : s.eng.phase = .awaitingSentinel)
      (rx : s.transport.rx = b :: rest) (nresp : s.eng.nresp = some n) (expected : 0 < n)
      (eq : t = { s with
        transport := rxConsume s.transport
        eng := { s.eng with rxbuf := some [], phase := .readingResponse } })
  | responseEnds (b : Byte) (rest got : List Byte) (n : Nat) (reading : s.eng.phase = .readingResponse)
      (rx : s.transport.rx = b :: rest) (rxbuf : s.eng.rxbuf = some got) (nresp : s.eng.nresp = some n)
      (last : got.length + 1 = 2 * n)
      (eq : t = finish (.ok (.words (responseWords (got ++ [b])))) { s with transport := rxConsume s.transport })
  | responseGrows (b : Byte) (rest got : List Byte) (n : Nat) (reading : s.eng.phase = .readingResponse)
      (rx : s.transport.rx = b :: rest) (rxbuf : s.eng.rxbuf = some got) (nresp : s.eng.nresp = some n)
      (more : got.length + 1 ≠ 2 * n)
      (eq : t = { s with transport := rxConsume s.transport, eng := { s.eng with rxbuf := some (got ++ [b]) } })

theorem Accepts.engineStep {c : WriteChoice} {s u t : State} (hp : s.eng.phase = .idle) (he : u.eng = s.eng)
    (ht : u.transport = s.transport) (h : Accepts u t) : EngineStep c s t := by
  cases h with
  | held busy => exact absurd (he ▸ hp) busy
  | pure op o _ allowed eq => exact .completes u op o hp he ht allowed eq
  | send op frame n _ isSend eq => exact .begins u op frame n hp he ht isSend eq

theorem acceptMove_engineStep {c : WriteChoice} {s t : State} (hp : s.eng.phase = .idle)
    (h : acceptMove s = .next t) : EngineStep c s t := by
  unfold acceptMove at h
  split at h
  case h_1 hq => exact .rests (.inl ⟨hp, hq⟩) (Host.Outcome.next.inj h).symm
  case h_2 =>
    rcases exec_accepts h with ha | ⟨args, -, -, ha⟩
    · exact ha.engineStep hp rfl rfl
    · exact ha.engineStep hp (cacheContrast_eng args s) (cacheContrast_transport args s)

theorem transmit_engineStep {c : WriteChoice} {s t : State} (hp : s.eng.phase = .tx)
    (h : transmit c s = .next t) : EngineStep c s t := by
  obtain ⟨frame, k, b, hf, hk, -, ⟨-, rfl⟩ | ⟨-, rfl⟩ | ⟨e, -, -, rfl⟩⟩ := transmit_next h
  · exact .writes frame k b hp hf hk rfl
  · exact .writeFails b _ hp (.inl rfl) rfl
  · exact .writeFails b _ hp (.inr ⟨e, rfl⟩) rfl

theorem readSentinel_engineStep {c : WriteChoice} {s t : State} (hp : s.eng.phase = .awaitingSentinel)
    (h : readSentinel s = .next t) : EngineStep c s t := by
  obtain ⟨hr, rfl⟩ | ⟨b, rest, hr, ⟨hb, rfl⟩ | ⟨-, hn, rfl⟩ | ⟨-, n, hn, hpos, rfl⟩⟩ := readSentinel_next h
  · exact .readTimesOut (.inl hp) hr rfl
  · exact .sentinelEnds b rest _ hp hr (.inl ⟨hb, rfl⟩) rfl
  · exact .sentinelEnds b rest _ hp hr (.inr ⟨hn, rfl⟩) rfl
  · exact .responseBegins b rest n hp hr hn hpos rfl

theorem readResponse_engineStep {c : WriteChoice} {s t : State} (hp : s.eng.phase = .readingResponse)
    (h : readResponse s = .next t) : EngineStep c s t := by
  obtain ⟨hr, rfl⟩ | ⟨b, rest, got, n, hr, hg, hn, ⟨hl, rfl⟩ | ⟨hl, rfl⟩⟩ := readResponse_next h
  · exact .readTimesOut (.inr hp) hr rfl
  · exact .responseEnds b rest got n hp hr hg hn hl rfl
  · exact .responseGrows b rest got n hp hr hg hn hl rfl

theorem engineMove_engineStep {c : WriteChoice} {s t : State} (h : engineMove c s = .next t) : EngineStep c s t := by
  unfold engineMove at h
  split at h
  case h_1 hp => exact acceptMove_engineStep hp h
  case h_2 hp => exact transmit_engineStep hp h
  case h_3 hp => exact readSentinel_engineStep hp h
  case h_4 hp => exact readResponse_engineStep hp h
  case h_5 hp => exact .rests (.inr hp) (Host.Outcome.next.inj h).symm

/-! ## The other agents' moves -/

theorem acknowledge_of_done {s : State} (h : s.eng.phase = .done) :
    acknowledge s = { s with eng := Engine.reset } := by
  simp [acknowledge, h]

theorem acknowledge_of_not_done {s : State} (h : s.eng.phase ≠ .done) : acknowledge s = s := by
  cases hp : s.eng.phase <;> simp_all [acknowledge]

/-- Everything the move `m` of another agent than the Engine can do, as to the Engine record and the two streams. -/
inductive OtherStep (m : Move) (s t : State) : Prop where
  | leaves (eng : t.eng = s.eng) (tx : t.transport.tx = s.transport.tx) (rx : t.transport.rx = s.transport.rx)
  | arrives (b : Byte) (move : m = .device b) (eq : t = deviceSends b s)
  | acknowledges (move : m = .ack) (done : s.eng.phase = .done) (eq : t = resetEngine s)
  | resets (move : m = .reset) (eq : t = resetEngine s)

theorem presentRequest_otherStep {r : Request} {s t : State} (h : presentRequest r s = .next t) :
    OtherStep (.present r) s t := by
  rcases presentRequest_next h with rfl | ⟨-, -, rfl⟩ <;> exact .leaves rfl rfl rfl

theorem acknowledge_otherStep (s : State) : OtherStep .ack s (acknowledge s) := by
  by_cases hp : s.eng.phase = .done
  · exact .acknowledges rfl hp (acknowledge_of_done hp)
  · exact .leaves (by rw [acknowledge_of_not_done hp]) (by rw [acknowledge_transport]) (by rw [acknowledge_transport])

theorem openTransport_otherStep (c : TransportConfig) (s : State) :
    OtherStep (.openTransport c) s (openTransport c s) :=
  .leaves rfl (openWith_tx c s.transport) (openWith_rx c s.transport)

/-- A step is the Engine's, or another agent's. -/
theorem step_cases {s t : State} (h : step s = .next t) :
    (∃ c, nextMove s = .engine c ∧ EngineStep c (takeMove s) t) ∨
    ((∀ c, nextMove s ≠ .engine c) ∧ OtherStep (nextMove s) (takeMove s) t) := by
  unfold step at h
  cases hm : nextMove s <;> rw [hm] at h
  case engine c => exact .inl ⟨c, rfl, engineMove_engineStep h⟩
  case present r => exact .inr ⟨nofun, presentRequest_otherStep h⟩
  case ack => exact .inr ⟨nofun, Host.Outcome.next.inj h ▸ acknowledge_otherStep _⟩
  case openTransport c => exact .inr ⟨nofun, Host.Outcome.next.inj h ▸ openTransport_otherStep c _⟩
  case reset => exact .inr ⟨nofun, .resets rfl (Host.Outcome.next.inj h).symm⟩
  case device b => exact .inr ⟨nofun, .arrives b rfl (Host.Outcome.next.inj h).symm⟩

end Sys2Proof.Machine
end

section
/-! The Engine record's well-formedness (10_state.md R23 to R28): its shape by phase, that every step keeps it, that no
step from it faults, and the outcomes it allows in `Done`. -/

namespace Sys2Proof.Machine

/-! ## The shape of a well-formed record, by phase -/

theorem Engine.reset_wf : Engine.reset.wf = true := rfl

theorem Engine.eq_of_wf_idle {e : Engine} (hw : e.wf = true) (hp : e.phase = .idle) : e = Engine.reset := by
  unfold Engine.wf at hw
  split at hw <;> simp_all [Engine.reset]

theorem Engine.eq_of_wf_tx {e : Engine} (hw : e.wf = true) (hp : e.phase = .tx) :
    ∃ op frame k n, op.isSend = true ∧ k < frame.length ∧
      e = ⟨.tx, some op, some frame, some k, some n, none, none⟩ := by
  unfold Engine.wf at hw
  split at hw <;> simp_all

theorem Engine.eq_of_wf_awaitingSentinel {e : Engine} (hw : e.wf = true) (hp : e.phase = .awaitingSentinel) :
    ∃ op frame n, op.isSend = true ∧
      e = ⟨.awaitingSentinel, some op, some frame, some frame.length, some n, none, none⟩ := by
  unfold Engine.wf at hw
  split at hw <;> simp_all

theorem Engine.eq_of_wf_readingResponse {e : Engine} (hw : e.wf = true) (hp : e.phase = .readingResponse) :
    ∃ op frame n got, op.isSend = true ∧ got.length < 2 * n ∧
      e = ⟨.readingResponse, some op, some frame, some frame.length, some n, some got, none⟩ := by
  unfold Engine.wf at hw
  split at hw <;> simp_all

theorem Engine.eq_of_wf_done {e : Engine} (hw : e.wf = true) (hp : e.phase = .done) :
    (∃ op o, immediateOutcome op o = true ∧ e = ⟨.done, some op, none, none, none, none, some o⟩) ∨
    (∃ op frame k n o, op.isSend = true ∧ sendOutcome k frame.length n o = true ∧
      e = ⟨.done, some op, some frame, some k, some n, none, some o⟩) := by
  unfold Engine.wf at hw
  split at hw <;> simp_all

/-! ## Every step keeps it -/

/-- A send in progress may end with any outcome that fits the bytes it has written. -/
theorem finish_wf_of_send {s : State} {p : Phase} {op : Op} {frame : List Byte} {k n : Nat} {got : Option (List Byte)}
    {q : Option RequestOutcome} {o : RequestOutcome}
    (he : s.eng = ⟨p, some op, some frame, some k, some n, got, q⟩) (hs : op.isSend = true)
    (ho : sendOutcome k frame.length n o = true) : (finish o s).eng.wf = true := by
  simp [finish, he, Engine.wf, hs, ho]

/-- Two bytes make one response Word (R176). -/
theorem responseWords_length : ∀ {n : Nat} {bytes : List Byte}, bytes.length = 2 * n → (responseWords bytes).length = n
  | 0, [], _ => rfl
  | n + 1, h :: l :: rest, hl => by
    have hr : rest.length = 2 * n := by simp at hl; omega
    simp [responseWords, responseWords_length hr]
  | n + 1, [_], hl => by simp at hl; omega

theorem EngineStep.keeps_wf {c : WriteChoice} {s t : State} (hw : s.eng.wf = true) (h : EngineStep c s t) :
    t.eng.wf = true := by
  cases h with
  | rests _ eq => exact eq ▸ hw
  | completes u op o idle eng _ allowed eq =>
    have he := Engine.eq_of_wf_idle hw idle
    simpa [eq, finish, latch, eng, he, Engine.reset, Engine.wf] using allowed
  | begins u op frame n idle eng _ isSend eq =>
    have he := Engine.eq_of_wf_idle hw idle
    cases frame <;> simp [eq, beginSend, latch, eng, he, Engine.reset, Engine.wf, isSend]
  | writes frame k b tx txbuf txidx eq =>
    obtain ⟨op, frame', k', n, hs, hk, he⟩ := Engine.eq_of_wf_tx hw tx
    obtain rfl : frame = frame' := by simpa [he] using txbuf.symm
    obtain rfl : k = k' := by simpa [he] using txidx.symm
    by_cases hl : k + 1 = frame.length
    · simp [eq, advance, he, hl, Engine.wf, hs]
    · simp [eq, advance, he, hl, Engine.wf, hs]; omega
  | writeFails b o tx failure eq =>
    obtain ⟨op, frame, k, n, hs, hk, he⟩ := Engine.eq_of_wf_tx hw tx
    refine eq ▸ finish_wf_of_send he hs ?_
    rcases failure with rfl | ⟨e, rfl⟩ <;> simp [sendOutcome, hk, hk.le]
  | readTimesOut reading _ eq =>
    rcases reading with hp | hp
    · obtain ⟨op, frame, n, hs, he⟩ := Engine.eq_of_wf_awaitingSentinel hw hp
      exact eq ▸ finish_wf_of_send he hs (by simp [sendOutcome])
    · obtain ⟨op, frame, n, got, hs, -, he⟩ := Engine.eq_of_wf_readingResponse hw hp
      exact eq ▸ finish_wf_of_send he hs (by simp [sendOutcome])
  | sentinelEnds b rest o awaiting _ outcome eq =>
    obtain ⟨op, frame, n, hs, he⟩ := Engine.eq_of_wf_awaitingSentinel hw awaiting
    refine eq ▸ finish_wf_of_send he hs ?_
    rcases outcome with ⟨hb, rfl⟩ | ⟨hn, rfl⟩
    · simp [sendOutcome, hb]
    · obtain rfl : n = 0 := by simpa [he] using hn
      simp [sendOutcome]
  | responseBegins b rest n awaiting _ nresp expected eq =>
    obtain ⟨op, frame, n', hs, he⟩ := Engine.eq_of_wf_awaitingSentinel hw awaiting
    obtain rfl : n = n' := by simpa [he] using nresp.symm
    simp [eq, he, Engine.wf, hs, expected]
  | responseEnds b rest got n reading _ rxbuf nresp last eq =>
    obtain ⟨op, frame, n', got', hs, -, he⟩ := Engine.eq_of_wf_readingResponse hw reading
    obtain rfl : n = n' := by simpa [he] using nresp.symm
    obtain rfl : got = got' := by simpa [he] using rxbuf.symm
    have hl : (responseWords (got ++ [b])).length = n := responseWords_length (by simpa using last)
    exact eq ▸ finish_wf_of_send he hs (by simp [sendOutcome, hl])
  | responseGrows b rest got n reading _ rxbuf nresp more eq =>
    obtain ⟨op, frame, n', got', hs, hl, he⟩ := Engine.eq_of_wf_readingResponse hw reading
    obtain rfl : n = n' := by simpa [he] using nresp.symm
    obtain rfl : got = got' := by simpa [he] using rxbuf.symm
    simp [eq, he, Engine.wf, hs]
    omega

theorem OtherStep.keeps_wf {m : Move} {s t : State} (hw : s.eng.wf = true) (h : OtherStep m s t) :
    t.eng.wf = true := by
  cases h with
  | leaves eng => exact eng ▸ hw
  | arrives b _ eq => exact eq ▸ hw
  | acknowledges _ _ eq => exact eq ▸ Engine.reset_wf
  | resets _ eq => exact eq ▸ Engine.reset_wf

/-- Settles O41, by the cases of one step. -/
theorem stepKeepsTheEngineWellFormed : Obligations.StepKeepsTheEngineWellFormed := by
  intro s t hw h
  rw [← takeMove_eng s] at hw
  rcases step_cases h with ⟨c, -, he⟩ | ⟨-, ho⟩
  · exact he.keeps_wf hw
  · exact ho.keeps_wf hw

/-! ## No step faults -/

theorem completePure_ne_fault {op : Op} {o : RequestOutcome} {s : State} (f : Fault) :
    completePure op o s ≠ .fault f := by
  rcases completePure_cases op o s with ⟨-, e⟩ | ⟨-, e⟩ <;> simp [e]

theorem acceptSend_ne_fault {op : Op} {size n : Nat} {frame : Option (List Byte)} {s : State} (f : Fault) :
    acceptSend op size frame n s ≠ .fault f := by
  rcases acceptSend_cases op size frame n s with ⟨-, e⟩ | ⟨-, e⟩ | ⟨-, e⟩ | ⟨-, -, e⟩ | ⟨-, bytes, -, e⟩ <;> simp [e]

theorem acceptSendSigned_ne_fault {op : Op} {size : Nat} {frame : Option (List Byte)} {n : Int} {s : State}
    (f : Fault) : acceptSendSigned op size frame n s ≠ .fault f := by
  cases n with
  | ofNat k => exact acceptSend_ne_fault f
  | negSucc k => exact nofun

theorem catalogSend_ne_fault {opcode : Word} {args : List Int} {s : State} (f : Fault) :
    catalogSend opcode args s ≠ .fault f :=
  acceptSend_ne_fault f

/-- No instruction faults, in any state: an acceptance step reads no per-request field. -/
theorem exec_ne_fault {i : Instr} {s : State} (f : Fault) : exec i s ≠ .fault f := by
  cases i with
  | encodeWord v => exact completePure_ne_fault f
  | decodeWord a b => exact completePure_ne_fault f
  | packColor a b c =>
    simp only [exec, execPackColor]
    split
    · exact completePure_ne_fault f
    · exact nofun
  | sendCommand vs n => exact acceptSendSigned_ne_fault f
  | sendRawCommand vs n => exact acceptSendSigned_ne_fault f
  | reserved101 => exact nofun
  | reserved110 => exact nofun
  | reserved111 => exact nofun
  | _ => exact catalogSend_ne_fault f

theorem acceptMove_ne_fault {s : State} (f : Fault) : acceptMove s ≠ .fault f := by
  unfold acceptMove
  split
  · exact nofun
  · exact exec_ne_fault f

theorem presentRequest_ne_fault {r : Request} {s : State} (f : Fault) : presentRequest r s ≠ .fault f := by
  rcases presentRequest_cases r s with ⟨-, e⟩ | ⟨-, -, e⟩ | ⟨-, -, -, x, e⟩ <;> simp [e]

/-- A transmit step with a byte to write does not fault (R23). -/
theorem transmit_ne_fault {c : WriteChoice} {s : State} {frame : List Byte} {k : Nat}
    (hf : s.eng.txbuf = some frame) (hk : s.eng.txidx = some k) (hl : k < frame.length) (f : Fault) :
    transmit c s ≠ .fault f := by
  cases c <;> simp [transmit, hf, hk, hl, writeAnswer, raise]

theorem readSentinel_ne_fault {s : State} {n : Nat} (hn : s.eng.nresp = some n) (f : Fault) :
    readSentinel s ≠ .fault f := by
  simp only [readSentinel, hn, withField_some, raise]
  split
  · exact nofun
  · split_ifs <;> exact nofun

theorem readResponse_ne_fault {s : State} {got : List Byte} {n : Nat} (hg : s.eng.rxbuf = some got)
    (hn : s.eng.nresp = some n) (f : Fault) : readResponse s ≠ .fault f := by
  simp only [readResponse, hg, hn, withField_some, raise]
  split
  · exact nofun
  · split_ifs <;> exact nofun

/-- In each phase the fields the Engine's step reads hold values (R28). -/
theorem engineMove_ne_fault {c : WriteChoice} {s : State} (hw : s.eng.wf = true) (f : Fault) :
    engineMove c s ≠ .fault f := by
  unfold engineMove
  split
  case h_1 => exact acceptMove_ne_fault f
  case h_2 hp =>
    obtain ⟨op, frame, k, n, -, hk, he⟩ := Engine.eq_of_wf_tx hw hp
    exact transmit_ne_fault (by rw [he]) (by rw [he]) hk f
  case h_3 hp =>
    obtain ⟨op, frame, n, -, he⟩ := Engine.eq_of_wf_awaitingSentinel hw hp
    exact readSentinel_ne_fault (by rw [he]) f
  case h_4 hp =>
    obtain ⟨op, frame, n, got, -, -, he⟩ := Engine.eq_of_wf_readingResponse hw hp
    exact readResponse_ne_fault (by rw [he]) (by rw [he]) f
  case h_5 => exact nofun

/-- Settles O42, by the agent whose move it is. -/
theorem wellFormedStepNeverFaults : Obligations.WellFormedStepNeverFaults := by
  intro s f hw
  rw [← takeMove_eng s] at hw
  unfold step
  cases nextMove s with
  | engine c => exact engineMove_ne_fault hw f
  | present r => exact presentRequest_ne_fault f
  | ack => exact nofun
  | openTransport c => exact nofun
  | reset => exact nofun
  | device b => exact nofun

/-! ## The outcomes in `Done` -/

/-- What ENCODE_WORD, DECODE_WORD, PACK_COLOR and a send with the response count `nresp` may end with (R27, R78). -/
def OutcomeFits (nresp : Option Nat) (op : Op) (o : RequestOutcome) : Prop :=
  (op = .encodeWord → (∃ hi lo, o = .ok (.pair hi lo)) ∨ o = .rangeError) ∧
  (op = .decodeWord → (∃ w, o = .ok (.word w)) ∨ o = .rangeError) ∧
  (op = .packColor → ∃ w, o = .ok (.word w)) ∧
  (op = .sendCommand ∨ op = .sendRawCommand →
    (∃ ws, o = .ok (.words ws) ∧ nresp = some ws.length) ∨ o = .rangeError ∨ o = .communicationError ∨
    (∃ b, o = .protocolError b ∧ b ≠ 0x06) ∨ ∃ e, o = .transportWriteFailure e)

theorem outcomeFits_of_immediateOutcome {op : Op} {o : RequestOutcome} (nresp : Option Nat)
    (h : immediateOutcome op o = true) : OutcomeFits nresp op o := by
  cases o with
  | ok v =>
    cases v with
    | pair hi lo =>
      obtain rfl : op = .encodeWord := by simpa [immediateOutcome] using h
      simp [OutcomeFits]
    | word w =>
      obtain rfl | rfl : op = .decodeWord ∨ op = .packColor := by simpa [immediateOutcome] using h
      · simp [OutcomeFits]
      · simp [OutcomeFits]
    | words ws => exact nomatch h
  | rangeError =>
    have hop : op ≠ .packColor := by simpa [immediateOutcome] using h
    simp [OutcomeFits, hop]
  | communicationError => exact nomatch h
  | protocolError b => exact nomatch h
  | transportWriteFailure e => exact nomatch h

theorem outcomeFits_of_sendOutcome {op : Op} {o : RequestOutcome} {k total n : Nat} (hs : op.isSend = true)
    (h : sendOutcome k total n o = true) : OutcomeFits (some n) op o := by
  refine ⟨fun e => (nomatch e ▸ hs), fun e => (nomatch e ▸ hs), fun e => (nomatch e ▸ hs), fun _ => ?_⟩
  cases o with
  | ok v =>
    cases v with
    | pair hi lo => exact nomatch h
    | word w => exact nomatch h
    | words ws =>
      obtain ⟨-, hl⟩ : k = total ∧ ws.length = n := by simpa [sendOutcome] using h
      exact .inl ⟨ws, rfl, by rw [hl]⟩
  | rangeError => exact nomatch h
  | communicationError => exact .inr (.inr (.inl rfl))
  | protocolError b =>
    obtain ⟨-, hb⟩ : k = total ∧ b ≠ sentinel := by simpa [sendOutcome] using h
    exact .inr (.inr (.inr (.inl ⟨b, rfl, hb⟩)))
  | transportWriteFailure e => exact .inr (.inr (.inr (.inr ⟨e, rfl⟩)))

/-- Settles O46: the step keeps the record well formed (O41), and a well-formed record in `Done` has such an outcome. -/
theorem outcomesByOperation : Obligations.OutcomesByOperation := by
  intro s t hw h hp
  have hwt := stepKeepsTheEngineWellFormed s t hw h
  rcases Engine.eq_of_wf_done hwt hp with ⟨op, o, ho, he⟩ | ⟨op, frame, k, n, o, hs, ho, he⟩
  · exact ⟨op, o, by rw [he], by rw [he], outcomeFits_of_immediateOutcome _ ho⟩
  · exact ⟨op, o, by rw [he], by rw [he], by rw [he]; exact outcomeFits_of_sendOutcome hs ho⟩

end Sys2Proof.Machine
end

section
/-! The other statements about every step (10_state.md): the phases it may change, the fields it leaves, the stream
accesses it makes; and the boot order, the output ports and the Host's acts without effect. -/

namespace Sys2Proof.Machine

open Sys2Proof.Machine.Claims

/-! ## Phases -/

theorem EngineStep.phase {c : WriteChoice} {s t : State} (h : EngineStep c s t) :
    enginePhaseStep s.eng.phase t.eng.phase = true ∨
    (t = s ∧ ((s.eng.phase = .idle ∧ s.req = none) ∨ s.eng.phase = .done)) := by
  cases h with
  | rests waiting eq => exact .inr ⟨eq, waiting⟩
  | completes u op o idle _ _ _ eq => exact .inl (by rw [eq, idle]; rfl)
  | begins u op frame n idle _ _ _ eq =>
    refine .inl ?_
    rw [eq, idle, beginSend_phase]
    split <;> rfl
  | writes frame k b tx _ _ eq =>
    refine .inl ?_
    rw [eq, advance_phase, tx]
    split <;> rfl
  | writeFails b o tx _ eq => exact .inl (by rw [eq, tx]; rfl)
  | readTimesOut reading _ eq => exact .inl (by rcases reading with hp | hp <;> rw [eq, hp] <;> rfl)
  | sentinelEnds b rest o awaiting _ _ eq => exact .inl (by rw [eq, awaiting]; rfl)
  | responseBegins b rest n awaiting _ _ _ eq => exact .inl (by rw [eq, awaiting]; rfl)
  | responseEnds b rest got n reading _ _ _ _ eq => exact .inl (by rw [eq, reading]; rfl)
  | responseGrows b rest got n reading _ _ _ _ eq => exact .inl (by rw [eq]; simp [reading, enginePhaseStep])

theorem OtherStep.phase {m : Move} {s t : State} (h : OtherStep m s t) :
    t.eng.phase = s.eng.phase ∨ (m = .ack ∧ s.eng.phase = .done ∧ t.eng.phase = .idle) ∨
    (m = .reset ∧ t.eng.phase = .idle) := by
  cases h with
  | leaves eng => exact .inl (by rw [eng])
  | arrives b _ eq => exact .inl (by rw [eq, deviceSends_eng])
  | acknowledges move done eq => exact .inr (.inl ⟨move, done, by rw [eq]; rfl⟩)
  | resets move eq => exact .inr (.inr ⟨move, by rw [eq]; rfl⟩)

/-- Settles O43, by the cases of one step. -/
theorem phaseTransitionsAreLegal : Obligations.PhaseTransitionsAreLegal := by
  intro s t h
  rcases step_cases h with ⟨c, hm, he⟩ | ⟨hm, ho⟩
  · exact ⟨fun _ _ => by simpa using he.phase, fun hn => absurd hm (hn c)⟩
  · exact ⟨fun c hc => absurd hc (hm c), fun _ => by simpa using ho.phase⟩

/-! ## Latched fields -/

/-- From `s` to `t` the operation, the frame and the response count are the same. -/
structure KeepsLatched (s t : State) : Prop where
  op : t.eng.op = s.eng.op
  txbuf : t.eng.txbuf = s.eng.txbuf
  nresp : t.eng.nresp = s.eng.nresp

theorem EngineStep.keepsLatched {c : WriteChoice} {s t : State} (hp : s.eng.phase ≠ .idle) (h : EngineStep c s t) :
    KeepsLatched s t := by
  cases h with
  | rests _ eq => exact eq ▸ ⟨rfl, rfl, rfl⟩
  | completes u op o idle => exact absurd idle hp
  | begins u op frame n idle => exact absurd idle hp
  | writes frame k b _ _ _ eq => exact eq ▸ ⟨rfl, rfl, rfl⟩
  | writeFails b o _ _ eq => exact eq ▸ ⟨rfl, rfl, rfl⟩
  | readTimesOut _ _ eq => exact eq ▸ ⟨rfl, rfl, rfl⟩
  | sentinelEnds b rest o _ _ _ eq => exact eq ▸ ⟨rfl, rfl, rfl⟩
  | responseBegins b rest n _ _ _ _ eq => exact eq ▸ ⟨rfl, rfl, rfl⟩
  | responseEnds b rest got n _ _ _ _ _ eq => exact eq ▸ ⟨rfl, rfl, rfl⟩
  | responseGrows b rest got n _ _ _ _ _ eq => exact eq ▸ ⟨rfl, rfl, rfl⟩

theorem OtherStep.keepsLatched {m : Move} {s t : State} (hp : t.eng.phase ≠ .idle) (h : OtherStep m s t) :
    KeepsLatched s t := by
  cases h with
  | leaves eng => exact ⟨by rw [eng], by rw [eng], by rw [eng]⟩
  | arrives b _ eq => exact eq ▸ ⟨rfl, rfl, rfl⟩
  | acknowledges _ _ eq => exact absurd (by rw [eq]; rfl) hp
  | resets _ eq => exact absurd (by rw [eq]; rfl) hp

theorem phase_ne_idle_of_busy {s : State} (h : Busy s) : s.eng.phase ≠ .idle := by
  rcases h with h | h | h <;> simp [h]

/-- Settles O44: only an acceptance, an `rsp_ack` and a reset touch these fields. -/
theorem latchedFieldsStay : Obligations.LatchedFieldsStay := by
  intro s t hb h hp
  have hk : KeepsLatched (takeMove s) t := by
    rcases step_cases h with ⟨c, -, he⟩ | ⟨-, ho⟩
    · exact he.keepsLatched (by simpa using phase_ne_idle_of_busy hb)
    · exact ho.keepsLatched hp
  simpa using And.intro hk.op (And.intro hk.txbuf hk.nresp)

/-! ## Stream accesses -/

/-- At most the byte of the write has joined the end of `T.tx` (R53). -/
theorem txWrite_tx_cases (b : Byte) (c : WriteChoice) (t : Transport) :
    (txWrite b c t).tx = t.tx ∨ (txWrite b c t).tx = t.tx ++ [b] := by
  rw [txWrite_tx]
  cases byteDelivered c <;> simp

theorem EngineStep.tx {c : WriteChoice} {s t : State} (h : EngineStep c s t) :
    t.transport.tx = s.transport.tx ∨ (s.eng.phase = .tx ∧ ∃ b, t.transport.tx = s.transport.tx ++ [b]) := by
  cases h with
  | rests _ eq => exact .inl (by rw [eq])
  | completes u op o _ _ transport _ eq => exact .inl (by rw [eq, finish_transport, latch_transport, transport])
  | begins u op frame n _ _ transport _ eq => exact .inl (by rw [eq, beginSend_transport, transport])
  | writes frame k b tx _ _ eq => exact eq ▸ (txWrite_tx_cases b c s.transport).imp_right fun h => ⟨tx, b, h⟩
  | writeFails b o tx _ eq => exact eq ▸ (txWrite_tx_cases b c s.transport).imp_right fun h => ⟨tx, b, h⟩
  | readTimesOut _ _ eq => exact .inl (by rw [eq]; rfl)
  | sentinelEnds b rest o _ _ _ eq => exact .inl (by rw [eq]; rfl)
  | responseBegins b rest n _ _ _ _ eq => exact .inl (by rw [eq]; rfl)
  | responseEnds b rest got n _ _ _ _ _ eq => exact .inl (by rw [eq]; rfl)
  | responseGrows b rest got n _ _ _ _ _ eq => exact .inl (by rw [eq]; rfl)

/-- A read with a byte waiting takes that byte, the oldest (R54). -/
theorem rx_eq_cons_rxConsume {b : Byte} {rest : List Byte} {t : Transport} (h : t.rx = b :: rest) :
    t.rx = b :: (rxConsume t).rx := by
  simp [h]

theorem EngineStep.rx {c : WriteChoice} {s t : State} (h : EngineStep c s t) :
    t.transport.rx = s.transport.rx ∨
    ((s.eng.phase = .awaitingSentinel ∨ s.eng.phase = .readingResponse) ∧
      ∃ b, s.transport.rx = b :: t.transport.rx) := by
  cases h with
  | rests _ eq => exact .inl (by rw [eq])
  | completes u op o _ _ transport _ eq => exact .inl (by rw [eq, finish_transport, latch_transport, transport])
  | begins u op frame n _ _ transport _ eq => exact .inl (by rw [eq, beginSend_transport, transport])
  | writes frame k b _ _ _ eq => exact .inl (eq ▸ txWrite_rx b c s.transport)
  | writeFails b o _ _ eq => exact .inl (eq ▸ txWrite_rx b c s.transport)
  | readTimesOut _ rx eq => exact .inl (by simp [eq, rx])
  | sentinelEnds b rest o awaiting rx _ eq => exact .inr ⟨.inl awaiting, b, eq ▸ rx_eq_cons_rxConsume rx⟩
  | responseBegins b rest n awaiting rx _ _ eq => exact .inr ⟨.inl awaiting, b, eq ▸ rx_eq_cons_rxConsume rx⟩
  | responseEnds b rest got n reading rx _ _ _ eq => exact .inr ⟨.inr reading, b, eq ▸ rx_eq_cons_rxConsume rx⟩
  | responseGrows b rest got n reading rx _ _ _ eq => exact .inr ⟨.inr reading, b, eq ▸ rx_eq_cons_rxConsume rx⟩

theorem OtherStep.streams {m : Move} {s t : State} (h : OtherStep m s t) :
    t.transport.tx = s.transport.tx ∧
    (t.transport.rx = s.transport.rx ∨ ∃ b, m = .device b ∧ t.transport.rx = s.transport.rx ++ [b]) := by
  cases h with
  | leaves _ tx rx => exact ⟨tx, .inl rx⟩
  | arrives b move eq => exact eq ▸ ⟨rfl, .inr ⟨b, move, rfl⟩⟩
  | acknowledges _ _ eq => exact eq ▸ ⟨rfl, .inl rfl⟩
  | resets _ eq => exact eq ▸ ⟨rfl, .inl rfl⟩

/-- Settles O45, by the cases of one step. -/
theorem streamAccessesByPhase : Obligations.StreamAccessesByPhase := by
  intro s t h
  rcases step_cases h with ⟨c, hm, he⟩ | ⟨-, ho⟩
  · have htx := he.tx
    have hrx := he.rx
    rw [takeMove_eng, takeMove_transport] at htx hrx
    exact ⟨htx.imp_right fun ⟨hp, b, e⟩ => ⟨hp, c, b, hm, e⟩,
      hrx.imp_right fun ⟨hp, b, e⟩ => .inl ⟨hp, c, b, hm, e⟩⟩
  · obtain ⟨htx, hrx⟩ := ho.streams
    rw [takeMove_transport] at htx hrx
    exact ⟨.inl htx, hrx.imp_right .inr⟩

/-! ## Boot, output ports and acts without effect -/

/-- Settles O2: `powerOn` and `reset` differ in the transport's parameters, which `open` sets. -/
theorem bootOrderGivesTheResetState : Obligations.BootOrderGivesTheResetState :=
  ⟨rfl, rfl, Engine.reset_wf⟩

theorem readOutcome_of_done {s : State} {o : RequestOutcome} (hp : s.eng.phase = .done)
    (ho : s.eng.outcome = some o) : readOutcome s = .ok o := by
  simp [readOutcome, hp, ho]

theorem readOutcome_of_not_done {s : State} (hp : s.eng.phase ≠ .done) :
    readOutcome s = .error (.unset .outcome) := by
  unfold readOutcome
  split
  case h_1 h _ => exact absurd h hp
  case h_2 => rfl

/-- Settles O37: both ports show `readOutcome`, which is a fault outside `Done`. -/
theorem outputPorts : Obligations.OutputPorts := by
  refine ⟨fun s => ⟨by simp [reqReady], by simp [rspValid]⟩, fun s o hp ho => ?_, fun s hp => ?_⟩
  · rw [rspStatus, rspPayload, readOutcome_of_done hp ho]
    cases o <;> exact ⟨rfl, rfl⟩
  · rw [rspStatus, rspPayload, readOutcome_of_not_done hp]
    exact ⟨rfl, rfl⟩

/-- Settles O51: outside `Done` there is nothing to acknowledge, and an open transport keeps its parameters. -/
theorem hostActsWithoutEffect : Obligations.HostActsWithoutEffect := by
  refine ⟨fun s hm hp => ?_, fun s c c' hm hc => ?_⟩
  · rw [step, hm, applyMove, acknowledge_of_not_done (by rwa [takeMove_eng])]
  · rw [step, hm, applyMove, openTransport, openWith_of_open (by rwa [takeMove_transport])]

end Sys2Proof.Machine
end

section
/-! A send's whole cycle, in runs of the Engine's scripted moves: acceptance, the writes answered `WOk`, the sentinel, the
response bytes (R142, R143, R171 to R176). From it the residue statement (10_state.md R34, 70_reset_and_hazards.md R277). -/

namespace Sys2Proof.Machine

open Sys2Proof.Machine.Claims

/-! ## Frames and response Words -/

theorem inRange_cons {top v : Int} {vs : List Int} :
    InRange top (v :: vs) ↔ (0 ≤ v ∧ v < top) ∧ InRange top vs :=
  List.forall_mem_cons

theorem encodeWord_of_range {v : Int} (h : 0 ≤ v ∧ v < 65536) :
    encodeWord v = some (BitVec.ofInt 8 (v / 256), BitVec.ofInt 8 (v % 256)) := by
  rw [encodeWord, wordOperand_of_range h.1 h.2, Option.map_some]
  obtain ⟨hhi, hlo⟩ := splitWord_toNat (BitVec.ofInt 16 v)
  have hv : (BitVec.ofInt 16 v).toNat = v.toNat := by simp [BitVec.toNat_ofInt]; omega
  rw [hv] at hhi hlo
  congr 1
  refine Prod.ext (BitVec.eq_of_toNat_eq ?_) (BitVec.eq_of_toNat_eq ?_)
  · rw [hhi]; simp [BitVec.toNat_ofInt]; omega
  · rw [hlo]; simp [BitVec.toNat_ofInt]; omega

theorem wordFrame_of_inRange : ∀ {words : List Int}, InRange 65536 words → wordFrame words = some (wordBytes words)
  | [], _ => rfl
  | v :: vs, h => by
    obtain ⟨hv, hvs⟩ := inRange_cons.1 h
    simp [wordFrame, encodeWord_of_range hv, wordFrame_of_inRange hvs, wordBytes]

theorem rawFrame_of_inRange : ∀ {bytes : List Int}, InRange 256 bytes → rawFrame bytes = some (rawBytes bytes)
  | [], _ => rfl
  | v :: vs, h => by
    obtain ⟨hv, hvs⟩ := inRange_cons.1 h
    simp [rawFrame, byteOperand_of_range hv.1 hv.2, rawFrame_of_inRange hvs, rawBytes]

theorem wordBytes_length (words : List Int) : (wordBytes words).length = 2 * words.length := by
  induction words with
  | nil => rfl
  | cons v vs ih => simp [wordBytes] at ih ⊢; omega

theorem rawBytes_length (bytes : List Int) : (rawBytes bytes).length = bytes.length := by
  simp [rawBytes]

theorem length_of_frames {c : SendShape} {frame : List Byte} (h : c.Frames frame) : frame.length = c.size := by
  cases c with
  | words ws n => obtain ⟨-, rfl⟩ := h; exact wordBytes_length ws
  | bytes bs n => obtain ⟨-, rfl⟩ := h; exact rawBytes_length bs

theorem joinBytes_eq_ofNat (h l : Byte) : joinBytes h l = BitVec.ofNat 16 (h.toNat * 256 + l.toNat) := by
  apply BitVec.eq_of_toNat_eq
  have hh := h.isLt
  have hl := l.isLt
  rw [joinBytes_toNat, BitVec.toNat_ofNat]
  omega

/-- The reader's Words are the Words of R176's arithmetic. -/
theorem responseWords_eq_wordsOf : ∀ {n : Nat} {bytes : List Byte}, bytes.length = 2 * n →
    responseWords bytes = wordsOf n bytes
  | 0, [], _ => rfl
  | n + 1, h :: l :: rest, hl => by
    have hr : rest.length = 2 * n := by simp at hl; omega
    rw [responseWords, responseWords_eq_wordsOf hr, joinBytes_eq_ofNat]
    simp [wordsOf, List.range_succ_eq_map, Nat.mul_add]
  | n + 1, [_], hl => by simp at hl; omega

/-! ## Acceptance -/

/-- The acceptance step of a send of this shape (R142, R151). -/
def acceptShape : SendShape → State → Result
  | .words ws n => execSendCommand ws n
  | .bytes bs n => execSendRawCommand bs n

theorem cacheOnAcceptance_eq (args : List Int) (s : State) :
    cacheOnAcceptance args s = { s with contrast := (cacheOnAcceptance args s).contrast } := by
  unfold cacheOnAcceptance
  split <;> rfl

/-- Every send acts as its shape's send (R200), for CAT_CONTRAST with the contrast cache set first (R222). -/
theorem exec_of_sendOf {i : Instr} {c : SendShape} (h : sendOf i = some c) (s : State) :
    ∃ w, exec i s = acceptShape c { s with contrast := w } := by
  cases i with
  | encodeWord => exact nomatch h
  | decodeWord => exact nomatch h
  | packColor => exact nomatch h
  | reserved101 => exact nomatch h
  | reserved110 => exact nomatch h
  | reserved111 => exact nomatch h
  | catContrast args =>
    obtain rfl := Option.some.inj h
    exact ⟨_, congrArg (catalogSend 0xFF9C#16 args) (cacheOnAcceptance_eq args s)⟩
  | _ =>
    obtain rfl := Option.some.inj h
    exact ⟨s.contrast, rfl⟩

/-- A ready send with its operands in range begins with its frame. -/
theorem acceptShape_begins {c : SendShape} {n : Nat} {frame : List Byte} {s : State} (hn : c.expected = (n : Int))
    (hf : c.Frames frame) (hr : s.ready frame.length n = true) :
    ∃ op, acceptShape c s = .next (beginSend op frame n s) := by
  rw [length_of_frames hf] at hr
  cases c with
  | words ws m =>
    obtain rfl : m = n := hn
    obtain ⟨hin, rfl⟩ := hf
    refine ⟨.sendCommand, ?_⟩
    rw [acceptShape, execSendCommand, wordFrame_of_inRange hin]
    exact acceptSend_ready (frame := some (wordBytes ws)) hr
  | bytes bs m =>
    obtain rfl : m = n := hn
    obtain ⟨hin, rfl⟩ := hf
    refine ⟨.sendRawCommand, ?_⟩
    rw [acceptShape, execSendRawCommand, rawFrame_of_inRange hin]
    exact acceptSend_ready (frame := some (rawBytes bs)) hr

theorem exec_begins {i : Instr} {c : SendShape} {n : Nat} {frame : List Byte} {s : State} (hc : sendOf i = some c)
    (hn : c.expected = (n : Int)) (hf : c.Frames frame) (hr : s.ready frame.length n = true) :
    ∃ op w, exec i s = .next (beginSend op frame n { s with contrast := w }) := by
  obtain ⟨w, hw⟩ := exec_of_sendOf hc s
  obtain ⟨op, hop⟩ := acceptShape_begins (s := { s with contrast := w }) hn hf hr
  exact ⟨op, w, hw.trans hop⟩

/-! ## One scripted step -/

theorem step_of_script {s : State} {m : Move} {ms : List Move} (hs : s.script = m :: ms) :
    step s = applyMove m { s with script := ms } := by
  rw [step, nextMove_of_script hs, takeMove_of_script hs]

section
variable {s : State} {c : WriteChoice} {ms : List Move} (hs : s.script = .engine c :: ms)
include hs

theorem step_of_request {r : Request} (hp : s.eng.phase = .idle) (hq : s.req = some r) :
    step s = exec (decode r) { s with script := ms } := by
  rw [step_of_script hs]
  simp [applyMove, engineMove, acceptMove, hp, hq]

theorem step_of_tx (hp : s.eng.phase = .tx) : step s = transmit c { s with script := ms } := by
  rw [step_of_script hs]
  simp [applyMove, engineMove, hp]

theorem step_of_awaitingSentinel (hp : s.eng.phase = .awaitingSentinel) :
    step s = readSentinel { s with script := ms } := by
  rw [step_of_script hs]
  simp [applyMove, engineMove, hp]

theorem step_of_readingResponse (hp : s.eng.phase = .readingResponse) :
    step s = readResponse { s with script := ms } := by
  rw [step_of_script hs]
  simp [applyMove, engineMove, hp]

end

theorem transmit_ok {s : State} {frame : List Byte} {k : Nat} (hf : s.eng.txbuf = some frame)
    (hk : s.eng.txidx = some k) (hl : k < frame.length) :
    transmit .ok s = .next (advance frame.length k
      { s with transport := { s.transport with tx := s.transport.tx ++ [frame[k]] } }) := by
  simp [transmit, hf, hk, hl, writeAnswer, txWrite, byteDelivered]

theorem rxConsume_of_cons {t : Transport} {b : Byte} {rest : List Byte} (h : t.rx = b :: rest) :
    rxConsume t = { t with rx := rest } := by
  simp [rxConsume, h]

theorem readSentinel_of_wrong_byte {s : State} {b : Byte} {rest : List Byte} (h : s.transport.rx = b :: rest)
    (hb : b ≠ sentinel) :
    readSentinel s = .next (finish (.protocolError b) { s with transport := { s.transport with rx := rest } }) := by
  simp [readSentinel, rxAnswer, rxConsume_of_cons h, h, hb, raise]

theorem readSentinel_of_no_response {s : State} {rest : List Byte} (h : s.transport.rx = sentinel :: rest)
    (hn : s.eng.nresp = some 0) :
    readSentinel s = .next (finish (.ok (.words [])) { s with transport := { s.transport with rx := rest } }) := by
  simp [readSentinel, rxAnswer, rxConsume_of_cons h, h, hn]

theorem readSentinel_of_response {s : State} {rest : List Byte} {n : Nat} (h : s.transport.rx = sentinel :: rest)
    (hn : s.eng.nresp = some n) (hpos : 0 < n) :
    readSentinel s = .next { s with
      transport := { s.transport with rx := rest }
      eng := { s.eng with rxbuf := some [], phase := .readingResponse } } := by
  simp [readSentinel, rxAnswer, rxConsume_of_cons h, h, hn, hpos.ne']

theorem readResponse_of_last_byte {s : State} {b : Byte} {rest got : List Byte} {n : Nat}
    (h : s.transport.rx = b :: rest) (hg : s.eng.rxbuf = some got) (hn : s.eng.nresp = some n)
    (hl : got.length + 1 = 2 * n) :
    readResponse s = .next (finish (.ok (.words (responseWords (got ++ [b]))))
      { s with transport := { s.transport with rx := rest } }) := by
  simp [readResponse, rxAnswer, rxConsume_of_cons h, h, hg, hn, hl]

theorem readResponse_of_byte {s : State} {b : Byte} {rest got : List Byte} {n : Nat}
    (h : s.transport.rx = b :: rest) (hg : s.eng.rxbuf = some got) (hn : s.eng.nresp = some n)
    (hl : got.length + 1 ≠ 2 * n) :
    readResponse s = .next { s with
      transport := { s.transport with rx := rest }
      eng := { s.eng with rxbuf := some (got ++ [b]) } } := by
  simp [readResponse, rxAnswer, rxConsume_of_cons h, h, hg, hn, hl]

/-! ## Runs of the Engine's moves -/

/-- The first `k` bytes of the frame of the send in `s` are written, every answer `WOk`, and these moves are left. -/
def afterWrites (frame : List Byte) (k : Nat) (moves : List Move) (s : State) : State :=
  { s with
    script := moves
    transport := { s.transport with tx := s.transport.tx ++ frame.take k }
    eng := { s.eng with txidx := some k, phase := if k < frame.length then .tx else .awaitingSentinel } }

theorem step_afterWrites {frame : List Byte} {k : Nat} {moves : List Move} {s : State}
    (hf : s.eng.txbuf = some frame) (hk : k < frame.length) :
    step (afterWrites frame k (.engine .ok :: moves) s) = .next (afterWrites frame (k + 1) moves s) := by
  have hstep : step (afterWrites frame k (.engine .ok :: moves) s) = _ :=
    (step_of_tx rfl (if_pos hk)).trans (transmit_ok (by exact hf) rfl hk)
  rw [hstep]
  by_cases hl : k + 1 = frame.length
  · simp [advance, afterWrites, hl]
  · have hlt : k + 1 < frame.length := by omega
    simp [advance, afterWrites, hl, hk, hlt]

/-- Writes answered `WOk` send the frame's bytes in order (R143). -/
theorem run_writes {frame : List Byte} {s : State} (hf : s.eng.txbuf = some frame) (hi : s.eng.txidx = some 0)
    (hp : s.eng.phase = if 0 < frame.length then .tx else .awaitingSentinel) :
    ∀ {k : Nat} {moves : List Move}, k ≤ frame.length →
      s.script = List.replicate k (.engine .ok) ++ moves → run k s = .next (afterWrites frame k moves s)
  | 0, moves, _, hs => by
    have : afterWrites frame 0 moves s = s := by
      simp only [List.replicate_zero, List.nil_append] at hs
      simp [afterWrites, ← hs, ← hi, ← hp]
    rw [run_zero, this]
  | k + 1, moves, hk, hs => by
    have hs' : s.script = List.replicate k (.engine .ok) ++ .engine .ok :: moves := by
      simp [hs, List.replicate_succ']
    rw [run_add (run_writes hf hi hp (by omega) hs'), run_of_step (step_afterWrites hf (by omega)), run_zero]

/-- The reads have left these bytes in `T.rx`, and these moves are left. -/
def afterReads (rest : List Byte) (moves : List Move) (s : State) : State :=
  { s with script := moves, transport := { s.transport with rx := rest } }

/-- The last response bytes end the request with the Words of all of them (R176). -/
theorem run_reads {n : Nat} {bytes rest : List Byte} {moves : List Move} : ∀ {got : List Byte} {s : State},
    bytes ≠ [] → s.eng.phase = .readingResponse → s.eng.nresp = some n → s.eng.rxbuf = some got →
    got.length + bytes.length = 2 * n → s.transport.rx = bytes ++ rest →
    s.script = List.replicate bytes.length (.engine .ok) ++ moves →
    run bytes.length s =
      .next (finish (.ok (.words (responseWords (got ++ bytes)))) (afterReads rest moves s)) := by
  induction bytes with
  | nil => exact fun h => absurd rfl h
  | cons b bytes ih =>
    intro got s _ hp hn hg hl hr hs
    rw [List.length_cons] at hl hs
    by_cases hlast : bytes = []
    · subst hlast
      exact run_of_step ((step_of_readingResponse hs hp).trans (readResponse_of_last_byte hr hg hn hl))
    · have hmore : got.length + 1 ≠ 2 * n := by
        have := List.length_pos_iff.2 hlast
        omega
      have hstep := (step_of_readingResponse hs hp).trans (readResponse_of_byte hr hg hn hmore)
      have hrest := (run_of_step hstep).trans (ih hlast hp hn rfl (by simp; omega) rfl rfl)
      rw [List.append_assoc] at hrest
      exact hrest

/-- A whole reply, the sentinel and the bytes of `n` Words, ends the request with these Words (R173, R174, R176). -/
theorem run_reply {n : Nat} {reply rest : List Byte} {moves : List Move} {s : State}
    (hp : s.eng.phase = .awaitingSentinel) (hn : s.eng.nresp = some n) (hl : reply.length = 2 * n)
    (hr : s.transport.rx = sentinel :: (reply ++ rest))
    (hs : s.script = List.replicate (2 * n + 1) (.engine .ok) ++ moves) :
    run (2 * n + 1) s = .next (finish (.ok (.words (wordsOf n reply))) (afterReads rest moves s)) := by
  rw [← responseWords_eq_wordsOf hl]
  by_cases h0 : n = 0
  · subst h0
    obtain rfl : reply = [] := List.length_eq_zero_iff.1 hl
    exact run_of_step ((step_of_awaitingSentinel hs hp).trans (readSentinel_of_no_response hr hn))
  · have hstep := (step_of_awaitingSentinel hs hp).trans
      (readSentinel_of_response hr hn (Nat.pos_of_ne_zero h0))
    have hne : reply ≠ [] := List.ne_nil_of_length_pos (by omega)
    rw [← hl] at hstep ⊢
    exact (run_of_step hstep).trans (run_reads (got := []) hne rfl (by exact hn) rfl (by simpa using hl) rfl rfl)

/-- From a presented, ready send: its frame is written and nothing is read yet, with these moves left. -/
structure FrameWritten (frame : List Byte) (n : Nat) (moves : List Move) (s t : State) : Prop where
  phase : t.eng.phase = .awaitingSentinel
  nresp : t.eng.nresp = some n
  tx : t.transport.tx = s.transport.tx ++ frame
  rx : t.transport.rx = s.transport.rx
  script : t.script = moves
  req : t.req = none

/-- Acceptance and the writes of any send (R142, R143, R151). -/
theorem run_accepts_and_writes {s : State} {r : Request} {c : SendShape} {n : Nat} {frame : List Byte}
    {moves : List Move} (hc : sendOf (decode r) = some c) (hn : c.expected = (n : Int)) (hf : c.Frames frame)
    (hq : s.req = some r) (hr : s.ready frame.length n = true)
    (hs : s.script = List.replicate (frame.length + 1) (.engine .ok) ++ moves) :
    ∃ t, run (frame.length + 1) s = .next t ∧ FrameWritten frame n moves s t := by
  have hidle : s.eng.phase = .idle := (ready_iff.1 hr).1
  obtain ⟨op, w, hexec⟩ := exec_begins
    (s := { s with script := List.replicate frame.length (.engine .ok) ++ moves }) hc hn hf hr
  have hstep := (step_of_request hs hidle hq).trans hexec
  refine ⟨_, (run_of_step hstep).trans (run_writes rfl rfl (beginSend_phase ..) le_rfl rfl), ?_⟩
  exact ⟨if_neg (lt_irrefl _), rfl, by simp [afterWrites], rfl, rfl, rfl⟩

/-! ## The residue -/

/-- `rsp_ack` in `Done` (R76). -/
theorem step_acknowledges {s : State} {moves : List Move} (hp : s.eng.phase = .done)
    (hs : s.script = .ack :: moves) : step s = .next { s with eng := Engine.reset, script := moves } :=
  (step_of_script hs).trans (congrArg Host.Outcome.next (acknowledge_of_done hp))

/-- `rsp_ack`, acceptance and the writes of the next send, which waits on the port. -/
theorem run_acknowledges_and_writes {s : State} {r : Request} {c : SendShape} {n : Nat} {frame : List Byte}
    {moves : List Move} (hp : s.eng.phase = .done) (hq : s.req = some r) (hc : sendOf (decode r) = some c)
    (hn : c.expected = (n : Int)) (hf : c.Frames frame) (ho : s.transport.config.isSome = true)
    (hcmd : overBound s.bounds.maxCmdBytes frame.length = false)
    (hresp : overBound s.bounds.maxRespWords n = false)
    (hs : s.script = .ack :: (List.replicate (frame.length + 1) (.engine .ok) ++ moves)) :
    ∃ t, run (frame.length + 2) s = .next t ∧ FrameWritten frame n moves s t := by
  obtain ⟨t, hrun, ⟨hphase, hnresp, htx, hrx, hscript, hreq⟩⟩ := run_accepts_and_writes
    (s := { s with
      eng := Engine.reset
      script := List.replicate (frame.length + 1) (.engine .ok) ++ moves })
    hc hn hf hq (ready_iff.2 ⟨rfl, ho, hcmd, hresp⟩) rfl
  exact ⟨t, (run_of_step (step_acknowledges hp hs)).trans hrun, hphase, hnresp, htx, hrx, hscript, hreq⟩

/-- Settles O50: after the frame's writes the sentinel step reads the residue's first byte, whatever it belonged to. -/
theorem residueIsReadAsTheNextSentinel : Obligations.ResidueIsReadAsTheNextSentinel := by
  intro s r c n frame moves hp hq hc hn hf ho hcmd hresp
  refine ⟨fun b rest hr hb hs => ?_, fun stale rest hr hl hs => ?_⟩
  · have hs' : s.script = .ack :: (List.replicate (frame.length + 1) (.engine .ok) ++ (.engine .ok :: moves)) := by
      rw [hs, show 2 + frame.length = frame.length + 1 + 1 by omega, List.replicate_succ']
      simp
    obtain ⟨t, hrun, hw⟩ := run_acknowledges_and_writes hp hq hc hn hf ho hcmd hresp hs'
    have hstep := (step_of_awaitingSentinel hw.script hw.phase).trans
      (readSentinel_of_wrong_byte (hw.rx.trans hr) hb)
    rw [show 3 + frame.length = frame.length + 2 + 1 by omega]
    exact ⟨_, (run_add hrun).trans (run_of_step hstep), rfl, rfl, hw.tx, rfl⟩
  · have hs' : s.script = .ack :: (List.replicate (frame.length + 1) (.engine .ok) ++
        (List.replicate (2 * n + 1) (.engine .ok) ++ moves)) := by
      rw [hs, ← List.append_assoc, List.replicate_append_replicate,
        show 2 + frame.length + 2 * n = frame.length + 1 + (2 * n + 1) by omega]
      rfl
    obtain ⟨t, hrun, hw⟩ := run_acknowledges_and_writes hp hq hc hn hf ho hcmd hresp hs'
    have hreply := run_reply hw.phase hw.nresp hl (hw.rx.trans hr) hw.script
    rw [show 3 + frame.length + 2 * n = frame.length + 2 + (2 * n + 1) by omega]
    exact ⟨_, (run_add hrun).trans hreply, rfl, rfl, hw.tx, rfl⟩

end Sys2Proof.Machine
end

section
/-! The statement of 20_memory.md: the device's free steps (R52). -/

namespace Sys2Proof.Machine

/-- Settles O39: the move `device b` is `deviceSends b` in every phase, and taking it leaves the transport. -/
theorem deviceByteArrives : Obligations.DeviceByteArrives := by
  intro s b hm
  rw [step, hm, applyMove, deviceSends, takeMove_transport, deviceAppend]

end Sys2Proof.Machine
end

section
/-! The decoder and the encoder of 30_encoding.md (R71, R72) and 44_catalog.md (R200, R220): presenting an instruction
and decoding the request gives it back, and no Word of a catalog request is dropped. -/

namespace Sys2Proof

theorem decode_encode (i : Instr) : decode (encode i) = i := by
  cases i <;> rfl

/-- The operation of a catalog row keeps every Word of its request: it encodes to the request, or is its plain send. -/
def KeepsWords (row : Word × (List Int → Instr)) : Prop :=
  ∀ args, encode (row.2 args) = .catalog row.1 args ∨ row.2 args = plainCatalogSend row.1 args

/-- DISPLAY_SIZE_QUERY and CLEAR_SCREEN, the 19th row and the 9th, are the two whose argument lists R87 fixes; the
others take any. -/
theorem keepsWords_of_mem_catalogTable : ∀ row ∈ catalogTable, KeepsWords row := by
  intro row h
  fin_cases h
  pick_goal 19
  · exact fun
      | [] => .inr rfl
      | [_] => .inl rfl
      | _ :: _ :: _ => .inr rfl
  pick_goal 9
  · exact fun
      | [] => .inl rfl
      | _ :: _ => .inr rfl
  all_goals exact fun _ => .inl rfl

/-- A catalog request decodes by a row of the table with its Word, or to the plain send of that Word (R153, R220). -/
theorem decodeCatalog_cases (opcode : Word) (args : List Int) :
    (∃ operation, (opcode, operation) ∈ catalogTable ∧ decodeCatalog opcode args = operation args) ∨
    decodeCatalog opcode args = plainCatalogSend opcode args := by
  unfold decodeCatalog
  split
  case h_1 operation hl =>
    obtain ⟨l₁, l₂, htable, -⟩ := List.lookup_eq_some_iff.1 hl
    exact .inl ⟨operation, by simp [htable], rfl⟩
  case h_2 => exact .inr rfl

theorem encode_plainCatalogSend (opcode : Word) (args : List Int) :
    encode (plainCatalogSend opcode args) =
      .port 0b011 { words := (opcode.toNat : Int) :: args, expected := (respCount opcode : Int) } := rfl

theorem encode_decodeCatalog (opcode : Word) (args : List Int) :
    encode (decodeCatalog opcode args) = .catalog opcode args ∨
    encode (decodeCatalog opcode args) = encode (plainCatalogSend opcode args) := by
  rcases decodeCatalog_cases opcode args with ⟨operation, hmem, e⟩ | e
  · exact e ▸ (keepsWords_of_mem_catalogTable _ hmem args).imp_right (congrArg encode)
  · exact .inr (congrArg encode e)

theorem catalogTable_words_nodup : (catalogTable.map Prod.fst).Nodup := by
  decide

/-- Settles O3, by the instruction's constructors and by the catalog's rows. -/
theorem decodeInvertsEncode : Obligations.DecodeInvertsEncode :=
  ⟨decode_encode, encode_decodeCatalog, catalogTable_words_nodup⟩

/-- Settles O4: each Word is read as its row, and `0x1234`, which has none, as the plain send of itself. -/
theorem opcodeTableWordsDecode : Obligations.OpcodeTableWordsDecode :=
  ⟨rfl, rfl, rfl, rfl, rfl, rfl, rfl, rfl, rfl, rfl, rfl⟩

end Sys2Proof
end

section
/-! What is refused, and under which name (30_encoding.md R74, R84, R273), said once of the two shapes of a send; what a
ready catalog operation becomes (R200, R201); and when the frames exist (R79, R80). -/

namespace Sys2Proof.Machine

open Sys2Proof.Machine.Claims

/-! ## Frames -/

theorem encodeWord_none {v : Int} (h : ¬ (0 ≤ v ∧ v < 65536)) : encodeWord v = none := by
  rw [encodeWord, wordOperand_none (by omega), Option.map_none]

theorem inRange_of_wordFrame : ∀ {words : List Int} {frame : List Byte}, wordFrame words = some frame →
    InRange 65536 words
  | [], _, _ => nofun
  | v :: vs, frame, h => by
    unfold wordFrame at h
    split at h
    case h_1 hi lo rest hv hvs =>
      have hrange : 0 ≤ v ∧ v < 65536 := by
        by_contra hn
        simp [encodeWord_none hn] at hv
      exact inRange_cons.2 ⟨hrange, inRange_of_wordFrame hvs⟩
    case h_2 => exact nomatch h

theorem inRange_of_rawFrame : ∀ {bytes : List Int} {frame : List Byte}, rawFrame bytes = some frame →
    InRange 256 bytes
  | [], _, _ => nofun
  | v :: vs, frame, h => by
    unfold rawFrame at h
    split at h
    case h_1 byte rest hv hvs =>
      have hrange : 0 ≤ v ∧ v < 256 := by
        by_contra hn
        simp [byteOperand_none (v := v) (by omega)] at hv
      exact inRange_cons.2 ⟨hrange, inRange_of_rawFrame hvs⟩
    case h_2 => exact nomatch h

theorem wordFrame_eq_some_iff {words : List Int} {frame : List Byte} :
    wordFrame words = some frame ↔ InRange 65536 words ∧ frame = wordBytes words := by
  refine ⟨fun h => ?_, fun ⟨hin, e⟩ => e ▸ wordFrame_of_inRange hin⟩
  have hin := inRange_of_wordFrame h
  exact ⟨hin, Option.some.inj (h.symm.trans (wordFrame_of_inRange hin))⟩

theorem rawFrame_eq_some_iff {bytes : List Int} {frame : List Byte} :
    rawFrame bytes = some frame ↔ InRange 256 bytes ∧ frame = rawBytes bytes := by
  refine ⟨fun h => ?_, fun ⟨hin, e⟩ => e ▸ rawFrame_of_inRange hin⟩
  have hin := inRange_of_rawFrame h
  exact ⟨hin, Option.some.inj (h.symm.trans (rawFrame_of_inRange hin))⟩

theorem wordFrame_eq_none {words : List Int} (h : ¬ InRange 65536 words) : wordFrame words = none :=
  Option.eq_none_iff_forall_ne_some.2 fun _ hf => h (inRange_of_wordFrame hf)

/-- Settles O23: the frame of a list in range is its bytes, and a frame is only built of such a list. -/
theorem framesHaveTheirBytes : Obligations.FramesHaveTheirBytes :=
  ⟨fun _ _ => wordFrame_eq_some_iff, wordBytes_length, fun _ _ => rawFrame_eq_some_iff, rawBytes_length⟩

/-! ## Catalog operations in a ready state -/

theorem beginSend_eq_sending (op : Op) (frame : List Byte) (n : Nat) (s : State) :
    beginSend op frame n s = sending op frame n s := by
  cases frame <;> rfl

theorem finish_latch_eq_ended (op : Op) (o : RequestOutcome) (s : State) : finish o (latch op s) = ended op o s := rfl

section
variable {opcode : Word} {args : List Int} {s : State} (hr : s.ready (2 * (args.length + 1)) (respCount opcode) = true)
include hr

/-- A ready catalog operation with its Words in range is the send of their bytes (R200). -/
theorem catalogSend_of_inRange (h : InRange 65536 ((opcode.toNat : Int) :: args)) :
    catalogSend opcode args s =
      .next (sending .sendCommand (wordBytes ((opcode.toNat : Int) :: args)) (respCount opcode) s) := by
  rw [catalogSend, acceptSend_ready hr, wordFrame_of_inRange h, ← beginSend_eq_sending]

theorem catalogSend_of_not_inRange (h : ¬ InRange 65536 ((opcode.toNat : Int) :: args)) :
    catalogSend opcode args s = .next (ended .sendCommand .rangeError s) := by
  rw [catalogSend, acceptSend_ready hr, wordFrame_eq_none h, ← finish_latch_eq_ended]

end

theorem inRange_opcode_cons {opcode : Word} {args : List Int} :
    InRange 65536 ((opcode.toNat : Int) :: args) ↔ InRange 65536 args := by
  have := opcode.isLt
  exact inRange_cons.trans (and_iff_right (by omega))

theorem inRange_singleton {top v : Int} : InRange top [v] ↔ 0 ≤ v ∧ v < top :=
  List.forall_mem_singleton

/-- Settles O20: both are catalog operations, with the arguments R87 fixes and the response counts of R201. -/
theorem countedOperationsSend : Obligations.CountedOperationsSend := by
  refine ⟨fun s hr => catalogSend_of_inRange (args := []) hr (inRange_opcode_cons.2 nofun), fun m s hr => ?_⟩
  have hm : InRange 65536 (((0xFFA6 : Word).toNat : Int) :: [m]) ↔ 0 ≤ m ∧ m < 65536 :=
    inRange_opcode_cons.trans inRange_singleton
  split
  case isTrue h => exact catalogSend_of_inRange (args := [m]) hr (hm.2 h)
  case isFalse h => exact catalogSend_of_not_inRange (args := [m]) hr (mt hm.1 h)

/-! ## Refusals -/

/-- Every shape of a send is the signed acceptance step at its own size and count (R141, R150). -/
theorem acceptShape_signed (c : SendShape) :
    ∃ op frame, ∀ s, acceptShape c s = acceptSendSigned op c.size frame c.expected s := by
  cases c with
  | words ws n => exact ⟨.sendCommand, wordFrame ws, fun _ => rfl⟩
  | bytes bs n => exact ⟨.sendRawCommand, rawFrame bs, fun _ => rfl⟩

theorem acceptShape_of_natural {c : SendShape} {n : Nat} (hn : c.expected = (n : Int)) :
    ∃ op frame, ∀ s, acceptShape c s = acceptSend op c.size frame n s := by
  obtain ⟨op, frame, h⟩ := acceptShape_signed c
  exact ⟨op, frame, fun s => by rw [h, hn]; rfl⟩

theorem acceptShape_negative_count {c : SendShape} (h : c.expected < 0) (s : State) :
    acceptShape c s = .refused .negativeCount := by
  obtain ⟨op, frame, hs⟩ := acceptShape_signed c
  obtain ⟨k, hk⟩ := Int.eq_negSucc_of_lt_zero h
  rw [hs, hk, acceptSendSigned]

section
variable {c : SendShape} {n : Nat} {s : State} (hn : c.expected = (n : Int))
include hn

theorem acceptShape_over_bound
    (h : overBound s.bounds.maxCmdBytes c.size = true ∨ overBound s.bounds.maxRespWords n = true) :
    acceptShape c s = .refused .tooLong := by
  obtain ⟨op, frame, hs⟩ := acceptShape_of_natural hn
  rw [hs, acceptSend, if_pos (by simpa using h)]

theorem acceptShape_closed (hc : s.transport.config = none) (h1 : overBound s.bounds.maxCmdBytes c.size = false)
    (h2 : overBound s.bounds.maxRespWords n = false) : acceptShape c s = .refused .transportNotOpen := by
  obtain ⟨op, frame, hs⟩ := acceptShape_of_natural hn
  simp [hs, acceptSend, h1, h2, hc]

end

theorem channels_eq_none_iff {red green blue : Int} :
    channels red green blue = none ↔ red < 0 ∨ green < 0 ∨ blue < 0 := by
  refine ⟨fun h => ?_, fun h => ?_⟩
  · by_contra hn
    obtain ⟨r, rfl⟩ := Int.eq_ofNat_of_zero_le (show 0 ≤ red by omega)
    obtain ⟨g, rfl⟩ := Int.eq_ofNat_of_zero_le (show 0 ≤ green by omega)
    obtain ⟨b, rfl⟩ := Int.eq_ofNat_of_zero_le (show 0 ≤ blue by omega)
    exact nomatch (channels_of_nonneg r g b).symm.trans h
  · unfold channels
    split
    case h_1 => simp at h; omega
    case h_2 => rfl

/-- Settles O13: the clauses of the sends are those of their shapes. -/
theorem refusedRequests : Obligations.RefusedRequests := by
  refine ⟨fun s => ⟨rfl, rfl, rfl⟩, fun red green blue s h => ?_, fun vs n s h => ⟨?_, ?_⟩, fun vs n s => ?_,
    fun vs n s => ?_, fun vs n s => ?_, fun vs n s => ?_⟩
  · rw [exec, execPackColor, channels_eq_none_iff.2 h]
  · exact acceptShape_negative_count (c := .words vs n) h s
  · exact acceptShape_negative_count (c := .bytes vs n) h s
  · exact acceptShape_over_bound (c := .words vs n) rfl
  · exact acceptShape_over_bound (c := .bytes vs n) rfl
  · exact acceptShape_closed (c := .words vs n) rfl
  · exact acceptShape_closed (c := .bytes vs n) rfl

theorem acceptSend_refused {op : Op} {size n : Nat} {frame : Option (List Byte)} {s : State} {r : Refusal}
    (h : acceptSend op size frame n s = .refused r) :
    (r = .tooLong ∧ (overBound s.bounds.maxCmdBytes size = true ∨ overBound s.bounds.maxRespWords n = true)) ∨
    (r = .transportNotOpen ∧ s.transport.config = none) := by
  rcases acceptSend_cases op size frame n s with ⟨hb, e⟩ | ⟨hc, e⟩ | ⟨-, e⟩ | ⟨-, -, e⟩ | ⟨-, bytes, -, e⟩ <;>
    rw [e] at h
  · exact .inl ⟨(Host.Outcome.refused.inj h).symm, hb⟩
  · exact .inr ⟨(Host.Outcome.refused.inj h).symm, hc⟩
  all_goals exact nomatch h

/-- The grounds on which a send of shape `c` is refused as `r` (R74). -/
def RefusalGround (c : SendShape) (s : State) (r : Refusal) : Prop :=
  (r = .negativeCount ∧ c.expected < 0) ∨
  ∃ n : Nat, c.expected = (n : Int) ∧
    ((r = .tooLong ∧ (overBound s.bounds.maxCmdBytes c.size = true ∨ overBound s.bounds.maxRespWords n = true)) ∨
      (r = .transportNotOpen ∧ s.transport.config = none))

theorem acceptShape_refused {c : SendShape} {s : State} {r : Refusal} (h : acceptShape c s = .refused r) :
    RefusalGround c s r := by
  by_cases hn : c.expected < 0
  · rw [acceptShape_negative_count hn] at h
    exact .inl ⟨(Host.Outcome.refused.inj h).symm, hn⟩
  · obtain ⟨n, hn⟩ := Int.eq_ofNat_of_zero_le (not_lt.1 hn)
    obtain ⟨op, frame, hs⟩ := acceptShape_of_natural hn
    exact .inr ⟨n, hn, acceptSend_refused ((hs s).symm.trans h)⟩

theorem exec_send_refused {i : Instr} {c : SendShape} {s : State} {r : Refusal} (hc : sendOf i = some c)
    (h : exec i s = .refused r) : RefusalGround c s r := by
  obtain ⟨w, hw⟩ := exec_of_sendOf hc s
  exact acceptShape_refused (s := { s with contrast := w }) (hw.symm.trans h)

theorem completePure_ne_refused {op : Op} {o : RequestOutcome} {s : State} (r : Refusal) :
    completePure op o s ≠ .refused r := by
  rcases completePure_cases op o s with ⟨-, e⟩ | ⟨-, e⟩ <;> simp [e]

theorem execPackColor_refused {red green blue : Int} {s : State} {r : Refusal}
    (h : execPackColor red green blue s = .refused r) :
    r = .negativeChannel ∧ (red < 0 ∨ green < 0 ∨ blue < 0) := by
  unfold execPackColor at h
  split at h
  case h_1 => exact absurd h (completePure_ne_refused r)
  case h_2 hc => exact ⟨(Host.Outcome.refused.inj h).symm, channels_eq_none_iff.1 hc⟩

/-- Settles O14: a send is refused on its shape's grounds; of the rest only PACK_COLOR and the reserved selectors
are. -/
theorem nothingElseIsRefused : Obligations.NothingElseIsRefused := by
  intro i s r h
  cases hs : sendOf i with
  | some c =>
    rcases exec_send_refused hs h with ⟨hr, hc⟩ | ⟨n, hn, hg⟩
    · exact .inr (.inr (.inl ⟨c, rfl, hr, hc⟩))
    · exact .inr (.inr (.inr ⟨c, n, rfl, hn, hg⟩))
  | none =>
    cases i with
    | encodeWord => exact absurd h (completePure_ne_refused r)
    | decodeWord => exact absurd h (completePure_ne_refused r)
    | packColor red green blue =>
      obtain ⟨hr, hneg⟩ := execPackColor_refused h
      exact .inr (.inl ⟨hr, red, green, blue, rfl, hneg⟩)
    | reserved101 => exact .inl ⟨(Host.Outcome.refused.inj h).symm, .inl rfl⟩
    | reserved110 => exact .inl ⟨(Host.Outcome.refused.inj h).symm, .inr (.inl rfl)⟩
    | reserved111 => exact .inl ⟨(Host.Outcome.refused.inj h).symm, .inr (.inr rfl)⟩
    | _ => exact nomatch hs

end Sys2Proof.Machine
end

section
/-! The life of a request (30_encoding.md R71 to R76, R81, R273): what presenting does, what each move does to the port,
what a busy Engine holds, the acceptance and the acknowledgement moves, and the whole cycle of a send. -/

namespace Sys2Proof.Machine

open Sys2Proof.Machine.Claims

/-! ## Presenting -/

/-- The model's own notion of a send is the statements' (R73, R200). -/
theorem isSend_eq (i : Instr) : i.isSend = (sendOf i).isSome := by
  cases i <;> rfl

theorem step_of_present {s : State} {r : Request} (hm : nextMove s = .present r) :
    step s = presentRequest r (takeMove s) := by
  rw [step, hm, applyMove]

theorem presentRequest_presents {r : Request} {s : State} (hq : s.req = none)
    (hf : r.fits s.bounds.operandWidth = true) (h : sendOf (decode r) = none ∨ s.transport.config ≠ none) :
    presentRequest r s = .next { s with req := some r } := by
  rcases presentRequest_cases r s with ⟨hn, -⟩ | ⟨-, -, e⟩ | ⟨-, hs, hc, -⟩
  · simp [hq, hf] at hn
  · exact e
  · rw [isSend_eq] at hs
    rcases h with h | h
    · simp [h] at hs
    · exact absurd hc h

theorem presentRequest_without_effect {r : Request} {s : State}
    (h : s.req ≠ none ∨ r.fits s.bounds.operandWidth = false) : presentRequest r s = .next s := by
  unfold presentRequest
  cases hq : s.req with
  | some q => rfl
  | none => simp [h.resolve_left (absurd hq)]

/-- A send presented on a closed transport is its own acceptance step, which refuses it (R273). -/
theorem presentRequest_send_closed {r : Request} {c : SendShape} {s : State} (hq : s.req = none)
    (hf : r.fits s.bounds.operandWidth = true) (hs : sendOf (decode r) = some c) (hc : s.transport.config = none) :
    presentRequest r s = exec (decode r) s := by
  simp [presentRequest, hq, hf, isSend_eq, hs, hc]

/-- Settles O38, by what stands on the port and what fits it. -/
theorem presentingARequest : Obligations.PresentingARequest := by
  intro s r hm
  rw [step_of_present hm]
  refine ⟨fun hq hf h => ?_, fun hq hf => ?_, fun r' hq => ?_⟩
  · exact presentRequest_presents (by simpa using hq) (by simpa using hf) (by simpa using h)
  · exact presentRequest_without_effect (.inr (by simpa using hf))
  · exact presentRequest_without_effect (.inl (by simp [hq]))

/-- Settles O52: presenting such a send is its acceptance step, whose refusals are its shape's. -/
theorem sendPresentedBeforeOpenIsRefused : Obligations.SendPresentedBeforeOpenIsRefused := by
  intro s r c hm hq hf hs hc
  rw [← takeMove_req s] at hq
  rw [← takeMove_bounds s] at hf
  rw [← takeMove_transport s] at hc
  obtain ⟨w, hw⟩ := exec_of_sendOf hs (takeMove s)
  rw [step_of_present hm, presentRequest_send_closed hq hf hs hc, hw, ← takeMove_bounds s]
  exact ⟨fun hn => acceptShape_negative_count hn _, fun n hn hb => acceptShape_over_bound hn hb,
    fun n hn h1 h2 => acceptShape_closed hn hc h1 h2⟩

/-! ## What a move does to the port -/

/-- Everything the move `m` can do to the port: nothing, free it at an acceptance, or present a request, a send on an
open transport only. -/
inductive PortStep (m : Move) (s t : State) : Prop where
  | keeps (req : t.req = s.req)
  | frees (idle : s.eng.phase = .idle) (req : t.req = none)
  | presents (r : Request) (move : m = .present r) (empty : s.req = none)
      (isOpen : (decode r).isSend = true → s.transport.config ≠ none) (req : t.req = some r)

theorem EngineStep.portStep {c : WriteChoice} {s t : State} (h : EngineStep c s t) : PortStep (.engine c) s t := by
  cases h with
  | rests _ eq => exact .keeps (by rw [eq])
  | completes u op o idle _ _ _ eq => exact .frees idle (by rw [eq, finish_req, latch_req])
  | begins u op frame n idle _ _ _ eq => exact .frees idle (by rw [eq, beginSend_req])
  | writes frame k b _ _ _ eq => exact .keeps (by rw [eq, advance_req])
  | writeFails b o _ _ eq => exact .keeps (by rw [eq, finish_req])
  | readTimesOut _ _ eq => exact .keeps (by rw [eq, finish_req])
  | sentinelEnds b rest o _ _ _ eq => exact .keeps (by rw [eq, finish_req])
  | responseBegins b rest n _ _ _ _ eq => exact .keeps (by rw [eq])
  | responseEnds b rest got n _ _ _ _ _ eq => exact .keeps (by rw [eq, finish_req])
  | responseGrows b rest got n _ _ _ _ _ eq => exact .keeps (by rw [eq])

theorem presentRequest_portStep {r : Request} {s t : State} (h : presentRequest r s = .next t) :
    PortStep (.present r) s t := by
  rcases presentRequest_next h with rfl | ⟨hq, ho, rfl⟩
  · exact .keeps rfl
  · exact .presents r rfl hq ho rfl

theorem applyMove_portStep {m : Move} {s t : State} (h : applyMove m s = .next t) : PortStep m s t := by
  cases m with
  | engine c => exact (engineMove_engineStep h).portStep
  | present r => exact presentRequest_portStep h
  | ack => exact .keeps (Host.Outcome.next.inj h ▸ acknowledge_req s)
  | openTransport c => exact .keeps (Host.Outcome.next.inj h ▸ openTransport_req c s)
  | reset => exact .keeps (Host.Outcome.next.inj h ▸ resetEngine_req s)
  | device b => exact .keeps (Host.Outcome.next.inj h ▸ deviceSends_req b s)

/-! ## A busy Engine -/

theorem PortStep.holds {m : Move} {s t : State} {r : Request} (hp : s.eng.phase ≠ .idle) (hq : s.req = some r)
    (h : PortStep m s t) : t.req = some r := by
  cases h with
  | keeps req => exact req.trans hq
  | frees idle => exact absurd idle hp
  | presents _ _ empty => exact nomatch hq.symm.trans empty

theorem Accepts.held_of_busy {s t : State} (hp : s.eng.phase ≠ .idle) (h : Accepts s t) : t = s := by
  cases h with
  | held _ same => exact same
  | pure _ _ idle => exact absurd idle hp
  | send _ _ _ idle => exact absurd idle hp

theorem exec_held {i : Instr} {s t : State} (hp : s.eng.phase ≠ .idle) (h : exec i s = .next t) : t = s := by
  rcases exec_accepts h with ha | ⟨_, -, hidle, -⟩
  · exact ha.held_of_busy hp
  · exact absurd hidle hp

/-- Settles O36: the port is freed in `Idle` only, and acceptance waits for `Idle`. -/
theorem busyRequestIsHeld : Obligations.BusyRequestIsHeld :=
  ⟨fun s _ _ hp hq h => (applyMove_portStep h).holds (by rwa [takeMove_eng]) (by rwa [takeMove_req]),
    fun _ _ _ => exec_held⟩

theorem EngineStep.rests_of_done {c : WriteChoice} {s t : State} (hp : s.eng.phase = .done) (h : EngineStep c s t) :
    t = s := by
  rcases h.phase with hstep | ⟨e, -⟩
  · simp [hp, enginePhaseStep] at hstep
  · exact e

/-- Settles O35: in `Done` the Engine rests, and of the other moves only a device byte touches the streams. -/
theorem doneHoldsItsOutcome : Obligations.DoneHoldsItsOutcome := by
  intro s t hp h hack hreset
  rw [← takeMove_eng s] at hp ⊢
  rw [← takeMove_transport s]
  rcases step_cases h with ⟨c, -, he⟩ | ⟨-, ho⟩
  · exact he.rests_of_done hp ▸ ⟨rfl, rfl, [], by simp⟩
  · cases ho with
    | leaves eng tx rx => exact ⟨eng, tx, [], by simp [rx]⟩
    | arrives b _ eq => exact eq ▸ ⟨rfl, rfl, [b], rfl⟩
    | acknowledges move => exact absurd move hack
    | resets move => exact absurd move hreset

/-! ## No send waits on a closed transport -/

theorem PortStep.open_of_send {m : Move} {s t : State} {r : Request} {c : SendShape} (hw : NoSendWaitsClosed s)
    (hq : t.req = some r) (hs : sendOf (decode r) = some c) (h : PortStep m s t) : s.transport.config ≠ none := by
  cases h with
  | keeps req => exact hw r c (req.symm.trans hq) hs
  | frees _ req => exact nomatch hq.symm.trans req
  | presents r' _ _ isOpen req =>
    obtain rfl : r' = r := Option.some.inj (req.symm.trans hq)
    exact isOpen (by rw [isSend_eq, hs]; rfl)

/-- Settles O53: a send comes to the port of an open transport only, and no step closes the transport. -/
theorem noStepLetsASendWaitClosed : Obligations.NoStepLetsASendWaitClosed := by
  intro s t hw h r c hq hs
  have hopen : s.transport.config ≠ none := by
    rw [← takeMove_transport]
    refine (applyMove_portStep h).open_of_send ?_ hq hs
    simpa [NoSendWaitsClosed] using hw
  obtain ⟨d, hd⟩ := Option.ne_none_iff_exists'.1 hopen
  simp [step_config_of_open hd h]

/-! ## The Engine's move in `Idle` and the Host's in `Done` -/

/-- Settles O5: in `Idle` the Engine's move is the acceptance step of the request on the port. -/
theorem stepRunsThePresentedRequest : Obligations.StepRunsThePresentedRequest := by
  intro s r c hm hp hq
  simp [step, hm, applyMove, engineMove, acceptMove, hp, hq]

/-- Settles O34: the acknowledged Engine record is the reset one. -/
theorem acknowledgeReturnsToIdle : Obligations.AcknowledgeReturnsToIdle := by
  intro s hm hp
  rw [step, hm, applyMove, acknowledge_of_done (by rwa [takeMove_eng]), Engine.reset]

/-! ## The whole cycle of a send -/

/-- Settles O48: acceptance and the frame's writes, then the whole reply. -/
theorem sendCycleSucceeds : Obligations.SendCycleSucceeds := by
  intro s r c n frame reply residue moves hc hn hf hq hr hs hrx hl
  rw [show 2 + frame.length + 2 * n = frame.length + 1 + (2 * n + 1) by omega] at hs ⊢
  rw [← List.replicate_append_replicate, List.append_assoc] at hs
  obtain ⟨t, hrun, hw⟩ := run_accepts_and_writes hc hn hf hq hr hs
  have hreply := run_reply hw.phase hw.nresp hl (hw.rx.trans hrx) hw.script
  exact ⟨_, (run_add hrun).trans hreply, rfl, rfl, hw.tx, rfl, rfl, hw.req⟩

end Sys2Proof.Machine
end

section
/-! The word codec (40_word_codec.md): `encode_word` and `decode_word` as arithmetic, their laws (R103, R107, R108,
R110), the two acceptance steps (R102, R105), and what no acceptance step touches (R102, R105, R122, R142, R151). -/

namespace Sys2Proof.Machine

open Sys2Proof.Machine.Claims

/-! ## `encode_word` and `decode_word` -/

theorem toNat_ofInt_of_range {n : Nat} {v : Int} (h0 : 0 ≤ v) (h1 : v < 2 ^ n) :
    ((BitVec.ofInt n v).toNat : Int) = v := by
  rw [BitVec.toNat_ofInt, Int.emod_eq_of_lt h0 (by exact_mod_cast h1), Int.toNat_of_nonneg h0]

theorem decodeWord_of_range {h l : Int} (hh : 0 ≤ h ∧ h < 256) (hl : 0 ≤ l ∧ l < 256) :
    decodeWord h l = some (BitVec.ofInt 16 (h * 256 + l)) := by
  have hhigh : ((BitVec.ofInt 8 h).toNat : Int) = h := toNat_ofInt_of_range hh.1 hh.2
  have hlow : ((BitVec.ofInt 8 l).toNat : Int) = l := toNat_ofInt_of_range hl.1 hl.2
  simp only [decodeWord, byteOperand_of_range hh.1 hh.2, byteOperand_of_range hl.1 hl.2]
  rw [joinBytes_eq_ofNat, ← BitVec.ofInt_natCast, Int.natCast_add, Int.natCast_mul, hhigh, hlow,
    Nat.cast_ofNat]

theorem decodeWord_none {h l : Int} (hr : ¬ ((0 ≤ h ∧ h < 256) ∧ (0 ≤ l ∧ l < 256))) : decodeWord h l = none := by
  by_cases hh : 0 ≤ h ∧ h < 256
  · have hl : l < 0 ∨ 256 ≤ l := by omega
    simp [decodeWord, byteOperand_none hl]
  · have hh : h < 0 ∨ 256 ≤ h := by omega
    simp [decodeWord, byteOperand_none hh]

/-- `encode_word` answers exactly in range, and then with the quotient and the remainder by 256 (R101). -/
theorem encodeWord_eq_some_iff {v : Int} {hi lo : Byte} : encodeWord v = some (hi, lo) ↔
    (0 ≤ v ∧ v < 65536) ∧ BitVec.ofInt 8 (v / 256) = hi ∧ BitVec.ofInt 8 (v % 256) = lo := by
  by_cases hv : 0 ≤ v ∧ v < 65536
  · simp [encodeWord_of_range hv, hv]
  · simp [encodeWord_none hv, hv]

/-- `decode_word` answers exactly in range, and then with the sum (R104). -/
theorem decodeWord_eq_some_iff {h l : Int} {w : Word} : decodeWord h l = some w ↔
    ((0 ≤ h ∧ h < 256) ∧ (0 ≤ l ∧ l < 256)) ∧ BitVec.ofInt 16 (h * 256 + l) = w := by
  by_cases hr : (0 ≤ h ∧ h < 256) ∧ (0 ≤ l ∧ l < 256)
  · simp [decodeWord_of_range hr.1 hr.2, hr]
  · simp [decodeWord_none hr, hr]

theorem encodeWord_recombines {v : Int} {hi lo : Byte} (h : encodeWord v = some (hi, lo)) :
    v = (hi.toNat : Int) * 256 + (lo.toNat : Int) := by
  obtain ⟨hv, rfl, rfl⟩ := encodeWord_eq_some_iff.1 h
  rw [toNat_ofInt_of_range (by omega) (by omega), toNat_ofInt_of_range (by omega) (by omega)]
  omega

theorem decodeWord_toNat {h l : Int} {w : Word} (hw : decodeWord h l = some w) : (w.toNat : Int) = h * 256 + l := by
  obtain ⟨⟨hh, hl⟩, rfl⟩ := decodeWord_eq_some_iff.1 hw
  exact toNat_ofInt_of_range (by omega) (by omega)

theorem decodeWord_toNat_toNat (hi lo : Byte) :
    decodeWord (hi.toNat : Int) (lo.toNat : Int) = some (BitVec.ofInt 16 (hi.toNat * 256 + lo.toNat)) := by
  have hhi := hi.isLt
  have hlo := lo.isLt
  exact decodeWord_of_range (by omega) (by omega)

/-- Settles O10: a byte pair of `encode_word` recombines to its operand, and the quotient and the remainder by 256 of a
Word of `decode_word` are its operands. -/
theorem codecInverseLaws : Obligations.CodecInverseLaws := by
  refine ⟨fun v h0 h1 => ?_, fun h l hh0 hh1 hl0 hl1 => ?_⟩
  · have he := encodeWord_of_range (v := v) (by omega)
    refine ⟨_, _, he, ?_⟩
    rw [decodeWord_toNat_toNat, ← encodeWord_recombines he]
  · have hd := decodeWord_of_range (h := h) (l := l) (by omega) (by omega)
    refine ⟨_, hd, ?_⟩
    rw [decodeWord_toNat hd, encodeWord_of_range (by omega), show (h * 256 + l) / 256 = h by omega,
      show (h * 256 + l) % 256 = l by omega]

/-- Settles O11: each answers in range only, and what it answers recombines to its operands. -/
theorem codecNeverWraps : Obligations.CodecNeverWraps :=
  ⟨fun _ _ _ => encodeWord_recombines, fun _ _ _ => decodeWord_toNat, fun _ h => encodeWord_none (by omega),
    fun _ _ h => decodeWord_none (by omega)⟩

/-! ## ENCODE_WORD and DECODE_WORD -/

theorem completePure_ends {op : Op} {o : RequestOutcome} {s : State} (h : s.eng.phase = .idle) :
    completePure op o s = .next (ended op o s) :=
  whenIdle_idle h

/-- Settles O7: in `Idle` the acceptance step ends with what `encode_word` answers. -/
theorem encodeWordResult : Obligations.EncodeWordResult := by
  intro v s hp
  rw [exec, execEncodeWord, completePure_ends hp]
  by_cases hv : 0 ≤ v ∧ v < 65536
  · rw [encodeWord_of_range hv, if_pos hv]
  · rw [encodeWord_none hv, if_neg hv]

/-- Settles O8: in `Idle` the acceptance step ends with what `decode_word` answers. -/
theorem decodeWordResult : Obligations.DecodeWordResult := by
  intro h l s hp
  rw [exec, execDecodeWord, completePure_ends hp]
  by_cases hr : (0 ≤ h ∧ h < 256) ∧ (0 ≤ l ∧ l < 256)
  · rw [decodeWord_of_range hr.1 hr.2, if_pos hr]
  · rw [decodeWord_none hr, if_neg hr]

/-! ## What no acceptance step touches -/

/-- Acceptance changes the Engine record and the port, and nothing else. -/
theorem Accepts.frame {s t : State} (h : Accepts s t) : ∃ e q, t = { s with eng := e, req := q } := by
  cases h with
  | held _ same => exact ⟨s.eng, s.req, same⟩
  | pure op o _ _ eq => exact ⟨_, _, eq⟩
  | send op frame n _ _ eq => exact ⟨_, _, eq⟩

/-- Settles O24: only CAT_CONTRAST sets the contrast cache, and acceptance itself changes the Engine record and the
port. -/
theorem acceptanceTouchesNoTransport : Obligations.AcceptanceTouchesNoTransport := by
  intro i s t h
  rcases exec_accepts h with ha | ⟨args, hi, -, ha⟩
  · obtain ⟨e, q, rfl⟩ := ha.frame
    exact ⟨rfl, rfl, rfl, rfl, .inl rfl⟩
  · obtain ⟨e, q, rfl⟩ := ha.frame
    exact ⟨rfl, rfl, rfl, rfl, .inr ⟨args, hi⟩⟩

end Sys2Proof.Machine
end

section
/-! The color packer (41_color_packer.md): the packed Word's fields (R123) and PACK_COLOR's acceptance step (R122). -/

namespace Sys2Proof.Machine

open Sys2Proof.Machine.Claims

/-- Settles O12: the packed Word is the sum of the shifted saturated channels, so dividing by a field's weight drops the
fields below it, and the remainder by the field's size drops those above. -/
theorem packedColourFields : Obligations.PackedColourFields := by
  intro red green blue
  have hsum := packColor_toNat red green blue
  refine ⟨?_, ?_, ?_, hsum⟩ <;> rw [BitVec.extractLsb_toNat, Nat.shiftRight_eq_div_pow, hsum] <;> omega

theorem packColor_eq_ofInt (red green blue : Nat) :
    packColor red green blue =
      BitVec.ofInt 16 (min (red : Int) 31 * 2048 + min (green : Int) 63 * 32 + min (blue : Int) 31) := by
  have hsum := congrArg (Nat.cast (R := Int)) (packColor_toNat red green blue)
  push_cast at hsum
  rw [← hsum, BitVec.ofInt_natCast, BitVec.ofNat_toNat, BitVec.setWidth_eq]

theorem execPackColor_natCast (red green blue : Nat) (s : State) :
    execPackColor red green blue s = completePure .packColor (.ok (.word (packColor red green blue))) s := by
  rw [execPackColor, channels_of_nonneg]

/-- Settles O9: non-negative channels are natural numbers, and in `Idle` the acceptance step ends with their packed
Word. -/
theorem packColorResult : Obligations.PackColorResult := by
  intro red green blue s hred hgreen hblue hp
  lift red to Nat using hred
  lift green to Nat using hgreen
  lift blue to Nat using hblue
  rw [exec, execPackColor_natCast, completePure_ends hp, packColor_eq_ofInt]

end Sys2Proof.Machine
end

section
/-! The command framer (42_command_framer.md): the acceptance steps of the two sends and of the catalog requests (R142,
R151, R200, R222), the transmit step by the Transport's answer (R143 to R145), and a failed write after `k` bytes (R147,
R148, R154). -/

namespace Sys2Proof.Machine

open Sys2Proof.Machine.Claims

/-! ## The acceptance step of a ready send -/

theorem rawFrame_eq_none {bytes : List Int} (h : ¬ InRange 256 bytes) : rawFrame bytes = none :=
  Option.eq_none_iff_forall_ne_some.2 fun _ hf => h (inRange_of_rawFrame hf)

theorem exec_sendCommand_natCast (words : List Int) (n : Nat) (s : State) :
    exec (.sendCommand words n) s = acceptSend .sendCommand (2 * words.length) (wordFrame words) n s := rfl

theorem exec_sendRawCommand_natCast (bytes : List Int) (n : Nat) (s : State) :
    exec (.sendRawCommand bytes n) s = acceptSend .sendRawCommand bytes.length (rawFrame bytes) n s := rfl

section
variable {op : Op} {size n : Nat} {s : State} (hr : s.ready size n = true)
include hr

theorem acceptSend_frame (frame : List Byte) :
    acceptSend op size (some frame) n s = .next (sending op frame n s) := by
  rw [acceptSend_ready hr, ← beginSend_eq_sending]

theorem acceptSend_no_frame : acceptSend op size none n s = .next (ended op .rangeError s) :=
  acceptSend_ready hr

end

/-- Settles O15: the Words have a frame exactly in range. -/
theorem sendCommandAccepted : Obligations.SendCommandAccepted := by
  intro words n s hr
  rw [exec_sendCommand_natCast]
  refine ⟨fun hin => ?_, fun hout => ?_⟩
  · rw [wordFrame_of_inRange hin, acceptSend_frame hr]
  · rw [wordFrame_eq_none hout, acceptSend_no_frame hr]

/-- Settles O16: the bytes are a frame exactly in range. -/
theorem sendRawCommandAccepted : Obligations.SendRawCommandAccepted := by
  intro bytes n s hr
  rw [exec_sendRawCommand_natCast]
  refine ⟨fun hin => ?_, fun hout => ?_⟩
  · rw [rawFrame_of_inRange hin, acceptSend_frame hr]
  · rw [rawFrame_eq_none hout, acceptSend_no_frame hr]

/-! ## A catalog request as one send -/

theorem exec_plainCatalogSend (opcode : Word) (args : List Int) (s : State) :
    exec (plainCatalogSend opcode args) s = catalogSend opcode args s := rfl

/-- The instruction that a catalog request presents is that request's send; CAT_CONTRAST sets the cache too (R222). -/
theorem exec_of_encode_catalog {i : Instr} {opcode : Word} {args : List Int} (h : encode i = .catalog opcode args)
    (ho : opcode ≠ 0xFF9C) (s : State) : exec i s = catalogSend opcode args s := by
  cases i with
  | encodeWord => exact nomatch h
  | decodeWord => exact nomatch h
  | packColor => exact nomatch h
  | sendCommand => exact nomatch h
  | sendRawCommand => exact nomatch h
  | reserved101 => exact nomatch h
  | reserved110 => exact nomatch h
  | reserved111 => exact nomatch h
  | catContrast => exact absurd (Request.catalog.inj h).1.symm ho
  | _ =>
    obtain ⟨rfl, rfl⟩ := Request.catalog.inj h
    rfl

theorem exec_decodeCatalog {opcode : Word} (ho : opcode ≠ 0xFF9C) (args : List Int) (s : State) :
    exec (decodeCatalog opcode args) s = catalogSend opcode args s := by
  rcases encode_decodeCatalog opcode args with hcatalog | hplain
  · exact exec_of_encode_catalog hcatalog ho s
  · rw [Function.LeftInverse.injective decode_encode hplain, exec_plainCatalogSend]

theorem exec_catContrast_idle {s : State} (hp : s.eng.phase = .idle) (args : List Int) :
    exec (.catContrast args) s = catalogSend 0xFF9C#16 args (cacheContrast args s) := by
  rw [exec, execCatContrast, cacheOnAcceptance_idle hp]

/-- Settles O22: a catalog request, by its row or as the plain send, is its opcode's send. -/
theorem catalogRequestIsOneSend : Obligations.CatalogRequestIsOneSend := by
  intro opcode args s
  refine ⟨fun ho => ?_, fun hp => ?_⟩
  · exact (exec_decodeCatalog ho args s).trans (exec_plainCatalogSend opcode args s).symm
  · exact (exec_catContrast_idle hp args).trans (exec_plainCatalogSend 0xFF9C args (cacheContrast args s)).symm

/-! ## The transmit step -/

theorem step_of_engine_in_tx {s : State} {c : WriteChoice} (hm : nextMove s = .engine c) (hp : s.eng.phase = .tx) :
    step s = transmit c (takeMove s) := by
  simp [step, hm, applyMove, engineMove, hp]

/-- Settles O25: the written byte joins `T.tx` and the counter passes it. -/
theorem transmitOnOk : Obligations.TransmitOnOk := by
  intro s frame k b hm hp hf hk hb
  obtain ⟨hl, rfl⟩ := List.getElem?_eq_some_iff.1 hb
  rw [step_of_engine_in_tx hm hp, transmit_ok (by rwa [takeMove_eng]) (by rwa [takeMove_eng]) hl]
  simp [advance, hp]

/-- The outcome with which a write of this choice ends its request, if it fails (R144, R145). -/
def writeFailure : WriteChoice → Option RequestOutcome
  | .ok => none
  | .timeout _ => some .communicationError
  | .fail e _ => some (.transportWriteFailure e)

section
variable {s : State} {frame : List Byte} {k : Nat} {b : Byte} {c : WriteChoice} {o : RequestOutcome}
  (hf : s.eng.txbuf = some frame) (hk : s.eng.txidx = some k) (hb : frame[k]? = some b) (hc : writeFailure c = some o)
include hf hk hb hc

/-- A failed write ends the request with its outcome, the byte delivered or not by the draw (R53, R144, R145). -/
theorem transmit_failed : transmit c s = .next (finish o { s with transport := txWrite b c s.transport }) := by
  cases c with
  | ok => exact nomatch hc
  | timeout d =>
    obtain rfl := Option.some.inj hc
    simp [transmit, hf, hk, hb, writeAnswer, raise]
  | fail e d =>
    obtain rfl := Option.some.inj hc
    simp [transmit, hf, hk, hb, writeAnswer, raise]

theorem step_of_failed_write (hm : nextMove s = .engine c) (hp : s.eng.phase = .tx) :
    step s = .next (endedWith o (if byteDelivered c then s.transport.tx ++ [b] else s.transport.tx) s.transport.rx
      (takeMove s)) := by
  rw [step_of_engine_in_tx hm hp, transmit_failed (by rwa [takeMove_eng]) (by rwa [takeMove_eng]) hb hc]
  cases hd : byteDelivered c <;> simp [finish, endedWith, txWrite, hd]

end

/-- Settles O26: a timed out write is a failed one. -/
theorem transmitOnTimeout : Obligations.TransmitOnTimeout :=
  fun _ _ _ _ _ hm hp hf hk hb => step_of_failed_write hf hk hb rfl hm hp

/-- Settles O27: `WFail(e)` is a failed write whose outcome carries `e`. -/
theorem transmitOnFailure : Obligations.TransmitOnFailure :=
  fun _ _ _ _ _ _ hm hp hf hk hb => step_of_failed_write hf hk hb rfl hm hp

/-- Settles O49: the writes answered `WOk` send the bytes before byte `k`, and the failed one ends the request. -/
theorem failedWriteKeepsEarlierBytes : Obligations.FailedWriteKeepsEarlierBytes := by
  intro s frame k b c moves o hp hf hi hb hfail hs
  have hc : writeFailure c = some o := by
    obtain ⟨rfl | rfl, rfl⟩ | ⟨e, d, rfl, rfl⟩ := hfail <;> rfl
  obtain ⟨hl, -⟩ := List.getElem?_eq_some_iff.1 hb
  have hphase : s.eng.phase = if 0 < frame.length then .tx else .awaitingSentinel := by
    rw [hp, if_pos (by omega)]
  have hwrites : run k s = .next (afterWrites frame k (.engine c :: moves) s) := run_writes hf hi hphase hl.le hs
  have hstep : step (afterWrites frame k (.engine c :: moves) s) = _ :=
    (step_of_tx rfl (if_pos hl)).trans (transmit_failed (by exact hf) rfl hb hc)
  refine ⟨_, (run_add hwrites).trans (run_of_step hstep), rfl, rfl, rfl, txWrite_tx .., txWrite_rx .., rfl⟩

end Sys2Proof.Machine
end

section
/-! The acknowledgement reader (43_ack_reader.md): the sentinel step (R171 to R174) and the response step (R175, R176),
each one `RxRead` of the Engine. -/

namespace Sys2Proof.Machine

open Sys2Proof.Machine.Claims

theorem step_of_engine_in_awaitingSentinel {s : State} {c : WriteChoice} (hm : nextMove s = .engine c)
    (hp : s.eng.phase = .awaitingSentinel) : step s = readSentinel (takeMove s) := by
  simp [step, hm, applyMove, engineMove, hp]

theorem step_of_engine_in_readingResponse {s : State} {c : WriteChoice} (hm : nextMove s = .engine c)
    (hp : s.eng.phase = .readingResponse) : step s = readResponse (takeMove s) := by
  simp [step, hm, applyMove, engineMove, hp]

theorem finish_with_rx (o : RequestOutcome) (rx : List Byte) (s : State) :
    finish o { s with transport := { s.transport with rx := rx } } = endedWith o s.transport.tx rx s := rfl

/-! ## No byte waits (R54) -/

theorem rxConsume_of_nil {t : Transport} (h : t.rx = []) : rxConsume t = { t with rx := [] } := by
  simp [rxConsume, h]

theorem readSentinel_of_no_byte {s : State} (h : s.transport.rx = []) :
    readSentinel s = .next (endedWith .communicationError s.transport.tx [] s) := by
  simp [readSentinel, rxAnswer, rxConsume_of_nil h, h, raise, finish_with_rx]

theorem readResponse_of_no_byte {s : State} (h : s.transport.rx = []) :
    readResponse s = .next (endedWith .communicationError s.transport.tx [] s) := by
  simp [readResponse, rxAnswer, rxConsume_of_nil h, h, raise, finish_with_rx]

/-! ## The sentinel step -/

/-- Settles O28: with no byte waiting, the sentinel read times out. -/
theorem sentinelOnTimeout : Obligations.SentinelOnTimeout := by
  intro s c hm hp hr
  rw [← takeMove_transport s] at hr ⊢
  rw [step_of_engine_in_awaitingSentinel hm hp, readSentinel_of_no_byte hr]

/-- Settles O29: a first byte that is not the sentinel is consumed and ends the request. -/
theorem sentinelOnWrongByte : Obligations.SentinelOnWrongByte := by
  intro s c b rest hm hp hr hb
  rw [← takeMove_transport s] at hr ⊢
  rw [step_of_engine_in_awaitingSentinel hm hp, readSentinel_of_wrong_byte hr hb, finish_with_rx]

/-- Settles O30: the sentinel ends a request that expects no response Word. -/
theorem sentinelWithNoResponse : Obligations.SentinelWithNoResponse := by
  intro s c rest hm hp hr hn
  rw [← takeMove_transport s] at hr ⊢
  rw [← takeMove_eng s] at hn
  rw [step_of_engine_in_awaitingSentinel hm hp, readSentinel_of_no_response hr hn, finish_with_rx]

/-- Settles O31: the sentinel of a request that expects response Words begins their reading. -/
theorem sentinelWithResponse : Obligations.SentinelWithResponse := by
  intro s c rest n hm hp hr hn hpos
  rw [← takeMove_transport s] at hr ⊢
  rw [step_of_engine_in_awaitingSentinel hm hp]
  rw [← takeMove_eng s] at hn ⊢
  exact readSentinel_of_response hr hn hpos

/-! ## The response step -/

/-- Settles O32: with no byte waiting, the response read times out, and the buffer is unset. -/
theorem responseOnTimeout : Obligations.ResponseOnTimeout := by
  intro s c hm hp hr
  rw [← takeMove_transport s] at hr ⊢
  rw [step_of_engine_in_readingResponse hm hp, readResponse_of_no_byte hr]

/-- The last response byte ends the request with the Words of R176's arithmetic. -/
theorem readResponse_ends_with_words {s : State} {b : Byte} {rest got : List Byte} {n : Nat}
    (h : s.transport.rx = b :: rest) (hg : s.eng.rxbuf = some got) (hn : s.eng.nresp = some n)
    (hl : got.length + 1 = 2 * n) :
    readResponse s = .next (endedWith (.ok (.words (wordsOf n (got ++ [b])))) s.transport.tx rest s) := by
  have hbytes : (got ++ [b]).length = 2 * n := by rw [List.length_append, List.length_singleton, hl]
  rw [readResponse_of_last_byte h hg hn hl, responseWords_eq_wordsOf hbytes, finish_with_rx]

/-- Settles O33: a byte that fills the buffer ends the request with its Words, and any other byte joins the buffer. -/
theorem responseOnByte : Obligations.ResponseOnByte := by
  intro s c b rest got n hm hp hr hg hn
  rw [step_of_engine_in_readingResponse hm hp]
  rw [← takeMove_eng s] at hg hn ⊢
  rw [← takeMove_transport s] at hr ⊢
  exact ⟨readResponse_ends_with_words hr hg hn, readResponse_of_byte hr hg hn⟩

end Sys2Proof.Machine
end

section
/-! The catalog (44_catalog.md R200, R204 to R219, R222): an opcode Word's bytes on the wire, and each operation with an
argument list as the ready send of its opcode's bytes and its arguments' bytes. -/

namespace Sys2Proof.Machine

open Sys2Proof.Machine.Claims

/-! ## The bytes of an opcode Word -/

theorem toNat_append_bytes (hi lo : Byte) : (hi ++ lo : Word).toNat = hi.toNat * 256 + lo.toNat := by
  rw [BitVec.toNat_append, ← Nat.shiftLeft_add_eq_or_of_lt lo.isLt, Nat.shiftLeft_eq]

/-- A Word is sent high byte first (R79). -/
theorem wordBytes_append_cons (hi lo : Byte) (args : List Int) :
    wordBytes (((hi ++ lo : Word).toNat : Int) :: args) = hi :: lo :: wordBytes args := by
  have hword := toNat_append_bytes hi lo
  have hlo := lo.isLt
  have hhigh : ((hi ++ lo : Word).toNat : Int) / 256 = hi.toNat := by omega
  have hlow : ((hi ++ lo : Word).toNat : Int) % 256 = lo.toNat := by omega
  rw [wordBytes, List.flatMap_cons, hhigh, hlow, ← wordBytes]
  simp

/-! ## The operations of the catalog -/

section
variable {hi lo : Byte}

/-- In a ready state a catalog request with its arguments in range is the send of its opcode's two bytes and their
bytes (R200). -/
theorem catalogSend_sends_bytes {args : List Int} {s : State} (hin : InRange 65536 args)
    (hr : s.ready (2 * (args.length + 1)) (respCount (hi ++ lo)) = true) :
    catalogSend (hi ++ lo) args s =
      .next (sending .sendCommand (hi :: lo :: wordBytes args) (respCount (hi ++ lo)) s) := by
  rw [catalogSend_of_inRange hr (inRange_opcode_cons.2 hin), wordBytes_append_cons]

/-- An operation presented as a catalog request of an opcode other than CAT_CONTRAST's sends that opcode. -/
theorem catalogSends_of_encode {operation : List Int → Instr}
    (henc : ∀ args, encode (operation args) = .catalog (hi ++ lo) args) (ho : (hi ++ lo : Word) ≠ 0xFF9C) :
    CatalogSends operation hi lo := by
  intro args s hin hr
  rw [exec_of_encode_catalog (henc args) ho, catalogSend_sends_bytes hin hr]

end

/-- Settles O17: each is presented under the opcode of its row (R204 to R207, R209). -/
theorem drawingOperationsSend : Obligations.DrawingOperationsSend := by
  refine ⟨?_, ?_, ?_, ?_, ?_, ?_, ?_, ?_, ?_⟩ <;> exact catalogSends_of_encode (fun _ => rfl) (by decide)

/-- Settles O18: each is presented under the opcode of its row (R210 to R214). -/
theorem textOperationsSend : Obligations.TextOperationsSend := by
  refine ⟨?_, ?_, ?_, ?_, ?_, ?_⟩ <;> exact catalogSends_of_encode (fun _ => rfl) (by decide)

/-- Settles O19: each is presented under the opcode of its row (R216, R218, R219). -/
theorem panelOperationsSend : Obligations.PanelOperationsSend := by
  refine ⟨?_, ?_, ?_⟩ <;> exact catalogSends_of_encode (fun _ => rfl) (by decide)

/-- Settles O21: the send begins from the state with the contrast cache set (R222), which is ready as before. -/
theorem contrastSendsAndCaches : Obligations.ContrastSendsAndCaches := by
  intro args s hin hr
  obtain ⟨hidle, -, -, -⟩ := ready_iff.1 hr
  exact (exec_catContrast_idle hidle args).trans
    (catalogSend_sends_bytes (hi := 0xFF) (lo := 0x9C) (s := cacheContrast args s) hin hr)

end Sys2Proof.Machine
end

section
/-! Reset and hazards (70_reset_and_hazards.md): reset as a move (R270, R272), the start of the invariant that no send
waits on a closed transport (R273, R274), and the bound within which a request reaches `Done` (R282). -/

namespace Sys2Proof.Machine

open Sys2Proof.Machine.Claims

/-! ## Reset and the start -/

@[simp] theorem resetEngine_resetEngine (s : State) : resetEngine (resetEngine s) = resetEngine s := rfl

/-- Settles O1: the move `reset` is `resetEngine`, whose Engine record is the reset one whatever it was. -/
theorem resetTouchesTheEngineOnly : Obligations.ResetTouchesTheEngineOnly := by
  intro s hm
  refine ⟨?_, resetEngine_resetEngine s⟩
  rw [step, hm, applyMove, resetEngine, Engine.reset]

theorem noSendWaitsClosed_of_no_request {s : State} (h : s.req = none) : NoSendWaitsClosed s :=
  fun _ _ hq => nomatch h.symm.trans hq

/-- Settles O54: in both states the port is empty. -/
theorem noSendWaitsClosedAtStart : Obligations.NoSendWaitsClosedAtStart :=
  ⟨noSendWaitsClosed_of_no_request rfl, noSendWaitsClosed_of_no_request rfl⟩

/-! ## The steps left, by phase -/

section
variable {e : Engine} {frame got : List Byte} {k n : Nat}

theorem Engine.remaining_of_tx (hp : e.phase = .tx) (hf : e.txbuf = some frame) (hk : e.txidx = some k)
    (hn : e.nresp = some n) : e.remaining = frame.length - k + 1 + 2 * n := by
  simp [Engine.remaining, hp, hf, hk, hn]

theorem Engine.remaining_of_awaitingSentinel (hp : e.phase = .awaitingSentinel) (hn : e.nresp = some n) :
    e.remaining = 1 + 2 * n := by
  simp [Engine.remaining, hp, hn]

theorem Engine.remaining_of_readingResponse (hp : e.phase = .readingResponse) (hn : e.nresp = some n)
    (hg : e.rxbuf = some got) : e.remaining = 2 * n - got.length := by
  simp [Engine.remaining, hp, hn, hg]

theorem Engine.remaining_of_done (hp : e.phase = .done) : e.remaining = 0 := by
  simp [Engine.remaining, hp]

end

/-- R282's bound: every byte of the frame, the sentinel and every response byte. -/
theorem Engine.remaining_le (e : Engine) :
    e.remaining ≤ (e.txbuf.getD []).length + 1 + 2 * e.nresp.getD 0 := by
  unfold Engine.remaining
  split <;> omega

/-- A request with no step left is over: in every busy phase a byte is left to write or to read. -/
theorem Engine.done_of_remaining_eq_zero {e : Engine} (hw : e.wf = true) (hp : e.phase ≠ .idle)
    (h : e.remaining = 0) : e.phase = .done := by
  cases hphase : e.phase with
  | idle => exact absurd hphase hp
  | tx =>
    obtain ⟨op, frame, k, n, -, -, rfl⟩ := Engine.eq_of_wf_tx hw hphase
    rw [Engine.remaining_of_tx rfl rfl rfl rfl] at h
    omega
  | awaitingSentinel =>
    obtain ⟨op, frame, n, -, rfl⟩ := Engine.eq_of_wf_awaitingSentinel hw hphase
    rw [Engine.remaining_of_awaitingSentinel rfl rfl] at h
    omega
  | readingResponse =>
    obtain ⟨op, frame, n, got, -, hl, rfl⟩ := Engine.eq_of_wf_readingResponse hw hphase
    rw [Engine.remaining_of_readingResponse rfl rfl rfl] at h
    omega
  | done => rfl

/-! ## The Engine's move of a request in progress -/

theorem EngineStep.phase_ne_idle {c : WriteChoice} {s t : State} (hp : s.eng.phase ≠ .idle) (h : EngineStep c s t) :
    t.eng.phase ≠ .idle := by
  rcases h.phase with hstep | ⟨rfl, -⟩
  · intro ht
    rw [ht] at hstep
    cases hs : s.eng.phase <;> exact nomatch hs ▸ hstep
  · exact hp

theorem EngineStep.script_of_not_idle {c : WriteChoice} {s t : State} (hp : s.eng.phase ≠ .idle)
    (h : EngineStep c s t) : t.script = s.script := by
  cases h with
  | rests _ eq => rw [eq]
  | completes u op o idle => exact absurd idle hp
  | begins u op frame n idle => exact absurd idle hp
  | writes frame k b _ _ _ eq => rw [eq, advance_script]
  | writeFails b o _ _ eq => rw [eq, finish_script]
  | readTimesOut _ _ eq => rw [eq, finish_script]
  | sentinelEnds b rest o _ _ _ eq => rw [eq, finish_script]
  | responseBegins b rest n _ _ _ _ eq => rw [eq]
  | responseEnds b rest got n _ _ _ _ _ eq => rw [eq, finish_script]
  | responseGrows b rest got n _ _ _ _ _ eq => rw [eq]

theorem finish_remaining (o : RequestOutcome) (s : State) : (finish o s).eng.remaining = 0 :=
  Engine.remaining_of_done rfl

/-- A written byte is one step less, whether or not it is the frame's last (R143). -/
theorem advance_remaining {s : State} {frame : List Byte} {k n : Nat} (hp : s.eng.phase = .tx)
    (hf : s.eng.txbuf = some frame) (hn : s.eng.nresp = some n) (hk : k < frame.length) :
    (advance frame.length k s).eng.remaining = frame.length - k + 2 * n := by
  by_cases hl : k + 1 = frame.length
  · rw [Engine.remaining_of_awaitingSentinel (n := n) (by simp [hl]) (by simpa using hn)]
    omega
  · rw [Engine.remaining_of_tx (frame := frame) (k := k + 1) (n := n) (by simp [hl, hp]) (by simpa using hf) rfl
      (by simpa using hn)]
    omega

/-- The Engine's move uses up a step of the request in progress; in `Done` none is left (R282). -/
theorem EngineStep.remaining_le {c : WriteChoice} {s t : State} (hw : s.eng.wf = true) (hp : s.eng.phase ≠ .idle)
    (h : EngineStep c s t) : t.eng.remaining ≤ s.eng.remaining - 1 := by
  cases h with
  | rests waiting eq =>
    have hdone : s.eng.phase = .done := waiting.resolve_left fun ⟨idle, _⟩ => hp idle
    rw [eq, Engine.remaining_of_done hdone]
  | completes u op o idle => exact absurd idle hp
  | begins u op frame n idle => exact absurd idle hp
  | writes frame k b tx txbuf txidx eq =>
    obtain ⟨op, frame', k', n, -, hk, he⟩ := Engine.eq_of_wf_tx hw tx
    obtain rfl : frame = frame' := by simpa [he] using txbuf.symm
    obtain rfl : k = k' := by simpa [he] using txidx.symm
    have hn : s.eng.nresp = some n := by rw [he]
    have ht : t.eng.remaining = frame.length - k + 2 * n := eq ▸ advance_remaining tx txbuf hn hk
    rw [ht, Engine.remaining_of_tx tx txbuf txidx hn]
    omega
  | writeFails b o _ _ eq => simp [eq, finish_remaining]
  | readTimesOut _ _ eq => simp [eq, finish_remaining]
  | sentinelEnds b rest o _ _ _ eq => simp [eq, finish_remaining]
  | responseBegins b rest n awaiting _ nresp _ eq =>
    have ht : t.eng.remaining = 2 * n - 0 := eq ▸ Engine.remaining_of_readingResponse (got := []) rfl nresp rfl
    rw [ht, Engine.remaining_of_awaitingSentinel awaiting nresp]
    omega
  | responseEnds b rest got n _ _ _ _ _ eq => simp [eq, finish_remaining]
  | responseGrows b rest got n reading _ rxbuf nresp _ eq =>
    have ht : t.eng.remaining = 2 * n - (got ++ [b]).length :=
      eq ▸ Engine.remaining_of_readingResponse reading nresp rfl
    rw [ht, Engine.remaining_of_readingResponse reading nresp rxbuf, List.length_append, List.length_singleton]
    omega

/-! ## Every access of a request in progress is answered -/

theorem withField_ne_refused {α : Type} {f : EngineField} {v : Option α} {k : α → Result} {r : Refusal}
    (h : ∀ a, k a ≠ .refused r) : withField f v k ≠ .refused r := by
  cases v with
  | none => exact nofun
  | some a => exact h a

theorem transmit_ne_refused {c : WriteChoice} {s : State} (r : Refusal) : transmit c s ≠ .refused r := by
  refine withField_ne_refused fun frame => withField_ne_refused fun k => ?_
  split
  · exact nofun
  · cases c <;> exact nofun

theorem readSentinel_ne_refused {s : State} (r : Refusal) : readSentinel s ≠ .refused r := by
  unfold readSentinel
  split
  · exact nofun
  · split_ifs
    · exact nofun
    · refine withField_ne_refused fun n => ?_
      split_ifs <;> exact nofun

theorem readResponse_ne_refused {s : State} (r : Refusal) : readResponse s ≠ .refused r := by
  unfold readResponse
  split
  · exact nofun
  · refine withField_ne_refused fun got => withField_ne_refused fun n => ?_
    dsimp only
    split_ifs <;> exact nofun

/-- Only a request that is not yet accepted is refused (R74). -/
theorem engineMove_ne_refused {c : WriteChoice} {s : State} (hp : s.eng.phase ≠ .idle) (r : Refusal) :
    engineMove c s ≠ .refused r := by
  unfold engineMove
  split
  case h_1 idle => exact absurd idle hp
  case h_2 => exact transmit_ne_refused r
  case h_3 => exact readSentinel_ne_refused r
  case h_4 => exact readResponse_ne_refused r
  case h_5 => exact nofun

/-- With a request in progress the Engine's move is answered; the request is then in progress or over, a step nearer. -/
theorem engineMove_progresses {s : State} (c : WriteChoice) (hw : s.eng.wf = true) (hp : s.eng.phase ≠ .idle) :
    ∃ t, engineMove c s = .next t ∧ t.eng.wf = true ∧ t.eng.phase ≠ .idle ∧ t.script = s.script ∧
      t.eng.remaining ≤ s.eng.remaining - 1 := by
  cases h : engineMove c s with
  | next t =>
    have he := engineMove_engineStep h
    exact ⟨t, rfl, he.keeps_wf hw, he.phase_ne_idle hp, he.script_of_not_idle hp, he.remaining_le hw hp⟩
  | fault f => exact absurd h (engineMove_ne_fault hw f)
  | refused r => exact absurd h (engineMove_ne_refused hp r)

/-- A request in progress reaches `Done`, and stays there, in as many Engine moves as it has steps left or more. -/
theorem run_reaches_done {choices : List WriteChoice} {rest : List Move} {s : State} (hw : s.eng.wf = true)
    (hp : s.eng.phase ≠ .idle) (hs : s.script = choices.map Move.engine ++ rest)
    (hr : s.eng.remaining ≤ choices.length) : ∃ t, run choices.length s = .next t ∧ t.eng.phase = .done := by
  induction choices generalizing s with
  | nil => exact ⟨s, run_zero s, Engine.done_of_remaining_eq_zero hw hp (Nat.le_zero.1 hr)⟩
  | cons c choices ih =>
    obtain ⟨u, hu, huw, hup, hus, hur⟩ :=
      engineMove_progresses (s := { s with script := choices.map Move.engine ++ rest }) c hw hp
    obtain ⟨t, hrun, hdone⟩ := ih huw hup hus (hur.trans (Nat.sub_le_of_le_add hr))
    exact ⟨t, (run_of_step ((step_of_script hs).trans hu)).trans hrun, hdone⟩

/-! ## The accepted request -/

theorem Accepts.phase_ne_idle {s t : State} (h : Accepts s t) : t.eng.phase ≠ .idle := by
  cases h with
  | held busy same => exact same ▸ busy
  | pure op o _ _ eq => simp [eq]
  | send op frame n _ _ eq =>
    rw [eq, beginSend_phase]
    split <;> exact nofun

theorem exec_phase_ne_idle {i : Instr} {s t : State} (h : exec i s = .next t) : t.eng.phase ≠ .idle := by
  rcases exec_accepts h with ha | ⟨_, -, -, ha⟩
  · exact ha.phase_ne_idle
  · exact ha.phase_ne_idle

/-- In `Idle` an instruction does what the Engine's acceptance step does; no choice of the Transport matters. -/
theorem exec_engineStep {i : Instr} {s t : State} (c : WriteChoice) (hp : s.eng.phase = .idle)
    (h : exec i s = .next t) : EngineStep c s t := by
  rcases exec_accepts h with ha | ⟨args, -, -, ha⟩
  · exact ha.engineStep hp rfl rfl
  · exact ha.engineStep hp (cacheContrast_eng args s) (cacheContrast_transport args s)

/-- Settles O47: every Engine move of a request in progress uses up a step, and no more are left than R282's bound. -/
theorem everyRequestReachesDone : Obligations.EveryRequestReachesDone :=
  ⟨fun _ _ _ => run_reaches_done, fun _ _ t hw hp h =>
    ⟨exec_phase_ne_idle h, (exec_engineStep .ok hp h).keeps_wf hw, t.eng.remaining_le⟩⟩

end Sys2Proof.Machine
end
